-- ==== Sys2Proof/Word.lean ====
section
/-! DEFINITION. The word types of I2CS-XFER: 32-bit registers and host addresses (00_scope.md R8, R13;
10_state.md R21), and bytes, the only width data moves in (20_memory.md R78). -/

namespace Sys2Proof

/-- A 32-bit register value or host-memory address. -/
abbrev Word := BitVec 32

/-- A data byte. -/
abbrev Byte := BitVec 8

end Sys2Proof
end

