-- ==== Sys2Proof/Config.lean ====
section
/-! DEFINITION. What an implementation fixes. The reference values of the launch parameters, which State.reset
starts from, and the opaque hardware-attribute constants, which no rule reads. The launch parameters themselves
are fields of State, so that a statement over every state is a statement over every value of them. -/

namespace Sys2Proof.Config

/-- Reference ring capacity in bytes (00_scope.md R6). -/
def ringC : Nat := 32

/-- Reference number of host ports (00_scope.md R7). -/
def nHost : Nat := 1

/-- Default of PREEMPT_STRICT (00_scope.md R9). -/
def preemptStrict : Bool := false

/-- The largest number of host ports the register map holds (10_state.md R42). -/
def maxHost : Nat := 120

/-- PERIPH_BASE, opaque (00_scope.md R12); no rule reads it. -/
opaque periphBase : Nat

/-- IRQ_LINE, opaque (00_scope.md R12); no rule reads it. -/
opaque irqLine : Nat

/-- IRQ_PRIO, opaque (00_scope.md R12, 60_exceptions.md R307); no rule reads it. -/
opaque irqPrio : Nat

/-- RING_STORAGE, opaque (00_scope.md R12); no rule reads it. -/
opaque ringStorage : Nat

end Sys2Proof.Config
end

