-- ==== Sys2Proof/Syntax.lean ====
section
/-! DEFINITION. The syntax of the machine: the commands of 30_encoding.md R91, one constructor of Instr for each
row of spec/opcode_table.json, and the entries of the schedule that say what happens next. -/

namespace Sys2Proof

/-- What a legal command word asks for (30_encoding.md R98). -/
inductive Command where
  | openC (saddr : BitVec 7)
  | closeC
  | readC
  | writeC
  deriving DecidableEq, Repr

/-- One constructor per row of the opcode table. `h` is a host port. The first four are the command words a host
writes to CMD[h]; the next five are the issue steps' bodies; then the sequencer steps of a port, the interrupt
handler, the timer callbacks, the tick, the peripheral's events and the three sub-operations (30_encoding.md R99). -/
inductive Instr where
  | openCmd (h : Nat) (saddr : BitVec 7)
  | closeCmd (h : Nat)
  | readCmd (h : Nat)
  | writeCmd (h : Nat)
  | openIssue (h : Nat)
  | closeIssue (h : Nat)
  | readIssue (h : Nat)
  | writeIssue (h : Nat)
  | illegalCommand (h : Nat) (w : Word)
  | opBuild (h : Nat)
  | rdLoop (h : Nat)
  | rdWaitWake (h : Nat)
  | rdWoken (h : Nat)
  | rdExit (h : Nat)
  | wrPendCheck (h : Nat)
  | wrDrain (h : Nat)
  | wrCheck (h : Nat)
  | wrWaitWake (h : Nat)
  | wrWaitTimeout (h : Nat)
  | wrExit (h : Nat)
  | isrService
  | rtExpire
  | pwExpire
  | tick
  | rxArrive (b : Byte)
  | txRequest
  | otherCause (k : Nat)
  | put (b : Byte)
  | get
  | producerStep
  deriving DecidableEq, Repr

/-- The width of one register-bus access (10_state.md R42 admits only `word`). -/
inductive BusWidth where
  | byte
  | half
  | word
  deriving DecidableEq, Repr

/-- One entry of the schedule: what the outside world, or the choice among the enabled steps, does next
(60_exceptions.md R301; notes/assumptions/1.md). -/
inductive Input where
  /-- A host writes `data` at a register offset (10_state.md R42); at CMD[h] this issues a command. -/
  | busWrite (off : BitVec 12) (width : BusWidth) (data : Word)
  /-- A host reads a register offset. -/
  | busRead (off : BitVec 12) (width : BusWidth)
  /-- The step that this step word names is taken: kind code, port, operand (notes/assumptions/8.md). -/
  | stepWord (w : BitVec 48)
  /-- A host task stores a byte in host memory (20_memory.md R72, R88). -/
  | hostStore (a : Word) (v : Byte)
  /-- The external reset (70_reset_and_hazards.md R340). -/
  | reset
  deriving DecidableEq, Repr

end Sys2Proof
end

