-- ==== Sys2Proof/WellFormed.lean ====
section
/-! DEFINITION. Which instruction terms name something of the spec: a port the register map has room for
(10_state.md R42), a cause bit OTHER_CAUSE may raise (44_interrupt_handler.md R244), and a command word that
can be illegal (30_encoding.md R97). -/

namespace Sys2Proof

/-- A port index the register map can hold (10_state.md R42: `N_HOST <= 120`). -/
abbrev portOk (h : Nat) : Prop := h < Config.maxHost

/-- A command word that is illegal for some value of ARG1: not OPEN with clear reserved bits and not CLOSE
(30_encoding.md R97; READ and WRITE words are illegal when bit 31 of ARG1 is set). -/
abbrev mayBeIllegal (w : Word) : Prop :=
  ¬(w.extractLsb' 7 25 = 0x200000#25) ∧ w ≠ 0x20000000#32

/-- The instruction is one that the spec names. -/
abbrev Instr.WellFormed (i : Instr) : Prop :=
  match i with
  | .openCmd h _ => portOk h
  | .closeCmd h => portOk h
  | .readCmd h => portOk h
  | .writeCmd h => portOk h
  | .openIssue h => portOk h
  | .closeIssue h => portOk h
  | .readIssue h => portOk h
  | .writeIssue h => portOk h
  | .illegalCommand h w => portOk h ∧ mayBeIllegal w
  | .opBuild h => portOk h
  | .rdLoop h => portOk h
  | .rdWaitWake h => portOk h
  | .rdWoken h => portOk h
  | .rdExit h => portOk h
  | .wrPendCheck h => portOk h
  | .wrDrain h => portOk h
  | .wrCheck h => portOk h
  | .wrWaitWake h => portOk h
  | .wrWaitTimeout h => portOk h
  | .wrExit h => portOk h
  | .isrService => True
  | .rtExpire => True
  | .pwExpire => True
  | .tick => True
  | .rxArrive _ => True
  | .txRequest => True
  | .otherCause k => 1 ≤ k ∧ k ≤ 7
  | .put _ => True
  | .get => True
  | .producerStep => True

end Sys2Proof
end

