-- ==== Sys2Proof/Decode.lean ====
section
/-! DEFINITION. Decoding and encoding. A command is a 32-bit word written to the CMD register of a port
(30_encoding.md R90 to R98); the other step kinds have the 8-bit codes of R99, carried here in a 48-bit step
word: kind in bits 7:0 as the opcode table has it, port in bits 15:8, operand in bits 47:16
(notes/assumptions/8.md). The decoder is total and rejects by name. -/

namespace Sys2Proof

/-- Why a word stands for no instruction. The first four are the cases (a) to (d) of 30_encoding.md R97. -/
inductive DecodeError where
  /-- (a) OP is 0x0 or 0x5 to 0xF. -/
  | opcode
  /-- (b) OPEN with a reserved bit set. -/
  | reservedOpen
  /-- (c) CLOSE, READ or WRITE with a reserved bit set. -/
  | reservedBits
  /-- (d) READ or WRITE with bit 31 of ARG1 set. -/
  | sizeRange
  /-- A kind code that R99 does not list. -/
  | noSuchKind
  /-- A step word's port field names no port the register map holds, or a step of no port has one. -/
  | portField
  /-- A step word's operand field holds what the kind does not take. -/
  | operandField
  /-- A bus access that is no aligned 32-bit write of a CMD register, or an entry that is no instruction. -/
  | notAnInstruction
  deriving DecidableEq, Repr

/-- The decode procedure of 30_encoding.md R98, with the case of R97 where the word is ILLEGAL. -/
def decodeCommand (w a1 : Word) : Except DecodeError Command :=
  let op := w.extractLsb' 28 4
  if op = 0x1#4 then
    if w.extractLsb' 7 21 = 0#21 then .ok (.openC (w.extractLsb' 0 7)) else .error .reservedOpen
  else if op = 0x2#4 then
    if w.extractLsb' 0 28 = 0#28 then .ok .closeC else .error .reservedBits
  else if op = 0x3#4 ∨ op = 0x4#4 then
    if w.extractLsb' 0 28 ≠ 0#28 then .error .reservedBits
    else if a1.getLsbD 31 then .error .sizeRange
    else .ok (if op = 0x3#4 then .readC else .writeC)
  else .error .opcode

/-- The command, issued on port `h`. -/
def Command.toInstr (h : Nat) : Command → Instr
  | .openC saddr => .openCmd h saddr
  | .closeC => .closeCmd h
  | .readC => .readCmd h
  | .writeC => .writeCmd h

/-- The command is an OPEN, whatever its slave address. -/
def Command.isOpen : Command → Bool
  | .openC _ => true
  | .closeC => false
  | .readC => false
  | .writeC => false

/-- The register offset of CMD[h] (10_state.md R45). -/
def cmdOffset (h : Nat) : BitVec 12 := BitVec.ofNat 12 (0x100 + 0x20 * h)

/-- The port whose CMD register an aligned 32-bit access at this offset reaches (10_state.md R42, R45). -/
def cmdPortOf (off : BitVec 12) (width : BusWidth) : Option Nat :=
  let n := off.toNat
  if width = .word ∧ 0x100 ≤ n ∧ n < 0x100 + 0x20 * Config.maxHost ∧ (n - 0x100) % 0x20 = 0
  then some ((n - 0x100) / 0x20) else none

/-- A step of a port: the port field must be a port, the operand field clear. -/
def stepOfPort (port : Nat) (opnd : Word) (mk : Nat → Instr) : Except DecodeError Instr :=
  if ¬ portOk port then .error .portField
  else if opnd ≠ 0#32 then .error .operandField
  else .ok (mk port)

/-- A step of no port: the port field must be clear and the operand acceptable. -/
def stepOfNoPort (port : Nat) (opndOk : Bool) (i : Instr) : Except DecodeError Instr :=
  if port ≠ 0 then .error .portField
  else if opndOk then .ok i
  else .error .operandField

/-- Decode a step word by its kind code (30_encoding.md R99). OTHER_CAUSE's operand is its bit number less one,
so that every operand from 0 to 6 names a cause bit of 44_interrupt_handler.md R244. -/
def decodeStep (w : BitVec 48) : Except DecodeError Instr :=
  let port := (w.extractLsb' 8 8).toNat
  let opnd := w.extractLsb' 16 32
  match w.extractLsb' 0 8 with
  | 0x01#8 => stepOfPort port opnd .openIssue
  | 0x02#8 => stepOfPort port opnd .closeIssue
  | 0x03#8 => stepOfPort port opnd .readIssue
  | 0x04#8 => stepOfPort port opnd .writeIssue
  | 0x0F#8 =>
    if ¬ portOk port then .error .portField
    else if mayBeIllegal opnd then .ok (.illegalCommand port opnd)
    else .error .operandField
  | 0x11#8 => stepOfPort port opnd .opBuild
  | 0x22#8 => stepOfPort port opnd .rdLoop
  | 0x23#8 => stepOfPort port opnd .rdWaitWake
  | 0x24#8 => stepOfPort port opnd .rdWoken
  | 0x25#8 => stepOfPort port opnd .rdExit
  | 0x36#8 => stepOfPort port opnd .wrPendCheck
  | 0x37#8 => stepOfPort port opnd .wrDrain
  | 0x38#8 => stepOfPort port opnd .wrCheck
  | 0x39#8 => stepOfPort port opnd .wrWaitWake
  | 0x3A#8 => stepOfPort port opnd .wrWaitTimeout
  | 0x3B#8 => stepOfPort port opnd .wrExit
  | 0x40#8 => stepOfNoPort port (opnd = 0#32) .isrService
  | 0x50#8 => stepOfNoPort port (opnd = 0#32) .rtExpire
  | 0x51#8 => stepOfNoPort port (opnd = 0#32) .pwExpire
  | 0x60#8 => stepOfNoPort port (opnd = 0#32) .tick
  | 0x70#8 => stepOfNoPort port (opnd.toNat < 256) (.rxArrive (opnd.setWidth 8))
  | 0x71#8 => stepOfNoPort port (opnd = 0#32) .txRequest
  | 0x72#8 => stepOfNoPort port (opnd.toNat < 7) (.otherCause (opnd.toNat + 1))
  | 0x80#8 => stepOfNoPort port (opnd.toNat < 256) (.put (opnd.setWidth 8))
  | 0x81#8 => stepOfNoPort port (opnd = 0#32) .get
  | 0x82#8 => stepOfNoPort port (opnd = 0#32) .producerStep
  | _ => .error .noSuchKind

/-- Decode a schedule entry. `arg1 h` is ARG1 of port `h`, which 30_encoding.md R98 reads. -/
def decode (inp : Input) (arg1 : Nat → Word) : Except DecodeError Instr :=
  match inp with
  | .busWrite off width w =>
    match cmdPortOf off width with
    | some h => (decodeCommand w (arg1 h)).map (Command.toInstr h)
    | none => .error .notAnInstruction
  | .stepWord w => decodeStep w
  | .busRead _ _ => .error .notAnInstruction
  | .hostStore _ _ => .error .notAnInstruction
  | .reset => .error .notAnInstruction

/-- The kind code of 30_encoding.md R99; the four command rows have none. -/
def Instr.kindCode : Instr → Option (BitVec 8)
  | .openCmd _ _ => none
  | .closeCmd _ => none
  | .readCmd _ => none
  | .writeCmd _ => none
  | .openIssue _ => some 0x01#8
  | .closeIssue _ => some 0x02#8
  | .readIssue _ => some 0x03#8
  | .writeIssue _ => some 0x04#8
  | .illegalCommand _ _ => some 0x0F#8
  | .opBuild _ => some 0x11#8
  | .rdLoop _ => some 0x22#8
  | .rdWaitWake _ => some 0x23#8
  | .rdWoken _ => some 0x24#8
  | .rdExit _ => some 0x25#8
  | .wrPendCheck _ => some 0x36#8
  | .wrDrain _ => some 0x37#8
  | .wrCheck _ => some 0x38#8
  | .wrWaitWake _ => some 0x39#8
  | .wrWaitTimeout _ => some 0x3A#8
  | .wrExit _ => some 0x3B#8
  | .isrService => some 0x40#8
  | .rtExpire => some 0x50#8
  | .pwExpire => some 0x51#8
  | .tick => some 0x60#8
  | .rxArrive _ => some 0x70#8
  | .txRequest => some 0x71#8
  | .otherCause _ => some 0x72#8
  | .put _ => some 0x80#8
  | .get => some 0x81#8
  | .producerStep => some 0x82#8

/-- The command word (30_encoding.md R92). -/
def Command.word : Command → Word
  | .openC saddr => 0x1#4 ++ 0#21 ++ saddr
  | .closeC => 0x2#4 ++ 0#28
  | .readC => 0x3#4 ++ 0#28
  | .writeC => 0x4#4 ++ 0#28

/-- A step word from its fields (notes/assumptions/8.md). -/
def mkStepWord (kind : BitVec 8) (port : Nat) (opnd : Word) : BitVec 48 :=
  opnd ++ BitVec.ofNat 8 port ++ kind

/-- The host write that issues a command on port `h`. -/
def encodeCommand (h : Nat) (k : Command) : Input := .busWrite (cmdOffset h) .word k.word

/-- The encoded form of an instruction. -/
def encode : Instr → Input
  | .openCmd h saddr => encodeCommand h (.openC saddr)
  | .closeCmd h => encodeCommand h .closeC
  | .readCmd h => encodeCommand h .readC
  | .writeCmd h => encodeCommand h .writeC
  | .openIssue h => .stepWord (mkStepWord 0x01#8 h 0#32)
  | .closeIssue h => .stepWord (mkStepWord 0x02#8 h 0#32)
  | .readIssue h => .stepWord (mkStepWord 0x03#8 h 0#32)
  | .writeIssue h => .stepWord (mkStepWord 0x04#8 h 0#32)
  | .illegalCommand h w => .stepWord (mkStepWord 0x0F#8 h w)
  | .opBuild h => .stepWord (mkStepWord 0x11#8 h 0#32)
  | .rdLoop h => .stepWord (mkStepWord 0x22#8 h 0#32)
  | .rdWaitWake h => .stepWord (mkStepWord 0x23#8 h 0#32)
  | .rdWoken h => .stepWord (mkStepWord 0x24#8 h 0#32)
  | .rdExit h => .stepWord (mkStepWord 0x25#8 h 0#32)
  | .wrPendCheck h => .stepWord (mkStepWord 0x36#8 h 0#32)
  | .wrDrain h => .stepWord (mkStepWord 0x37#8 h 0#32)
  | .wrCheck h => .stepWord (mkStepWord 0x38#8 h 0#32)
  | .wrWaitWake h => .stepWord (mkStepWord 0x39#8 h 0#32)
  | .wrWaitTimeout h => .stepWord (mkStepWord 0x3A#8 h 0#32)
  | .wrExit h => .stepWord (mkStepWord 0x3B#8 h 0#32)
  | .isrService => .stepWord (mkStepWord 0x40#8 0 0#32)
  | .rtExpire => .stepWord (mkStepWord 0x50#8 0 0#32)
  | .pwExpire => .stepWord (mkStepWord 0x51#8 0 0#32)
  | .tick => .stepWord (mkStepWord 0x60#8 0 0#32)
  | .rxArrive b => .stepWord (mkStepWord 0x70#8 0 (b.setWidth 32))
  | .txRequest => .stepWord (mkStepWord 0x71#8 0 0#32)
  | .otherCause k => .stepWord (mkStepWord 0x72#8 0 (BitVec.ofNat 32 (k - 1)))
  | .put b => .stepWord (mkStepWord 0x80#8 0 (b.setWidth 32))
  | .get => .stepWord (mkStepWord 0x81#8 0 0#32)
  | .producerStep => .stepWord (mkStepWord 0x82#8 0 0#32)

/-- The schedule entry for a row of the opcode table: a 32-bit row is written to CMD[0], an 8-bit row is a step
word whose higher bits are zero (30_encoding.md R90, R99). -/
def tableInput (nbits w : Nat) : Input :=
  if nbits = 32 then .busWrite (cmdOffset 0) .word (BitVec.ofNat 32 w)
  else .stepWord (BitVec.ofNat 48 (w % 2 ^ nbits))

/-- The instruction the decoder reads from a row's bits, with ARG1 of zero. -/
def decodeTableWord (nbits w : Nat) : Option Instr :=
  match decode (tableInput nbits w) (fun _ => 0#32) with
  | .ok i => some i
  | .error _ => none

end Sys2Proof
end

