-- ==== Sys2Proof/Machine/State.lean ====
section
/-! DEFINITION. The state of I2CS-XFER (10_state.md), grouped as R20 groups it, the reasons a step can stop, and
the state after reset (R46). -/

namespace Sys2Proof.Machine

/-- The sequencer phase of a host port (10_state.md R24). -/
inductive Phase where
  | idle
  | opBuild
  | rdLoop
  | rdWait
  | rdWoken
  | rdExit
  | wrPendCheck
  | wrDrain
  | wrCheck
  | wrWait
  | wrExit
  deriving DecidableEq, Repr

/-- The lifecycle state LSTATE (10_state.md R27). -/
inductive LState where
  | closed
  | opening
  | opened
  deriving DecidableEq, Repr

/-- The registers of one host port (10_state.md R21 to R26). CMD itself stores nothing: LCMD is its copy. -/
structure Port where
  arg0 : Word
  arg1 : Word
  arg2 : Word
  result : Word
  lcmd : Word
  busy : Bool
  ovr : Bool
  phase : Phase
  wwaitRem : Word
  wwaitInf : Bool
  deriving DecidableEq, Repr

/-- A port after reset (10_state.md R46). -/
def Port.reset : Port :=
  { arg0 := 0#32, arg1 := 0#32, arg2 := 0#32, result := 0#32, lcmd := 0#32, busy := false, ovr := false,
    phase := .idle, wwaitRem := 0#32, wwaitInf := false }

/-- The launch values that no step changes and that are not lengths of other fields (70_reset_and_hazards.md
R341). `hmemAdmit` is HMEM_ADMIT as inclusive address ranges (20_memory.md R71). -/
structure Launch where
  preemptStrict : Bool
  boardReady : Bool
  hmemAdmit : List (Nat × Nat)
  deriving DecidableEq, Repr

/-- OPENED and LSTATE (10_state.md R27). -/
structure Lifecycle where
  opened : Bool
  lstate : LState
  deriving DecidableEq, Repr

/-- The configuration registers (10_state.md R28). -/
structure RunConfig where
  readTimeout : Word
  writeTimeout : Word
  pwTimeout : Word
  slaveAddr : BitVec 7
  deriving DecidableEq, Repr

/-- The ring buffer (10_state.md R29). RING_C is the length of `mem`; a cell without a value is `none` (R47). -/
structure Ring where
  mem : List (Option Byte)
  rd : Nat
  wr : Nat
  cnt : Nat
  deriving DecidableEq, Repr

/-- RING_C, the capacity (00_scope.md R6). -/
abbrev Ring.cap (r : Ring) : Nat := r.mem.length

/-- A ring of `n` cells as reset leaves it (10_state.md R46). -/
def Ring.reset (n : Nat) : Ring := { mem := List.replicate n none, rd := 0, wr := 0, cnt := 0 }

/-- The read transfer state (10_state.md R30). -/
structure ReadXfer where
  buf : Word
  size : Word
  count : Word
  timedOut : Bool
  wakePending : Bool
  active : Bool
  deriving DecidableEq, Repr

/-- The read transfer state after reset, and after OP_BUILD. -/
def ReadXfer.reset : ReadXfer :=
  { buf := 0#32, size := 0#32, count := 0#32, timedOut := false, wakePending := false, active := false }

/-- The write transfer state (10_state.md R31). -/
structure WriteXfer where
  buf : Word
  size : Word
  count : Word
  deriving DecidableEq, Repr

/-- The write transfer state after reset, and after OP_BUILD. -/
def WriteXfer.reset : WriteXfer := { buf := 0#32, size := 0#32, count := 0#32 }

/-- A one-shot timer (10_state.md R37). -/
structure Timer where
  armed : Bool
  rem : Word
  exp : Bool
  deriving DecidableEq, Repr

/-- A timer after reset. -/
def Timer.reset : Timer := { armed := false, rem := 0#32, exp := false }

/-- The peripheral's interface state (10_state.md R41). -/
structure Periph where
  pen : Bool
  psaddr : BitVec 7
  rreq : Bool
  prxd : Option Byte
  treq : Bool
  pris : BitVec 8
  pim : BitVec 8
  txwire : List Byte
  rxwire : List Byte
  deriving DecidableEq, Repr

/-- The peripheral's interface after reset (10_state.md R46). -/
def Periph.reset : Periph :=
  { pen := false, psaddr := 0#7, rreq := false, prxd := none, treq := false, pris := 0#8, pim := 0#8,
    txwire := [], rxwire := [] }

/-- Host memory as (address, byte) pairs; an unlisted address holds no value (20_memory.md R70, R72). -/
abbrev Memory := List Host.Cell

/-- The agent that takes a step (60_exceptions.md R300). -/
inductive Agent where
  | host
  | isr
  | timer
  | tickSource
  | peripheral
  deriving DecidableEq, Repr

/-- The outcome of a sub-operation, for the event history (60_exceptions.md R310). -/
inductive SubOutcome where
  | putOk
  | putFull
  | gotByte (b : Byte)
  | gotEmpty
  | sentByte (b : Byte)
  | noData
  deriving DecidableEq, Repr

/-- One record of the event history (60_exceptions.md R310). -/
structure Record where
  kind : BitVec 8
  agent : Agent
  port : Option Nat
  operands : List Word
  outcome : Option SubOutcome
  deriving DecidableEq, Repr

/-- A sub-operation that the step under way has called (40_ring_buffer.md R122, 43_write_engine.md R210): PUT of the
byte ISR_SERVICE read, GET by RD_LOOP of port `h`, and PRODUCER_STEP by ISR_SERVICE (`none`) or by WR_PEND_CHECK of a
port. -/
inductive SubCall where
  | put (b : Byte)
  | get (h : Nat)
  | producer (port : Option Nat)
  deriving DecidableEq, Repr

/-- Why the machine stops. -/
inductive Fault where
  /-- MODEL_UNWRITTEN: a step reads a host byte, a ring cell or PRXD that holds no value (10_state.md R47,
  20_memory.md R72, 60_exceptions.md R306). Raised by ISR_SERVICE, WR_PEND_CHECK, RD_LOOP, GET and
  PRODUCER_STEP. Safe: the spec's model stops there too. -/
  | modelUnwritten
  deriving DecidableEq, Repr

/-- Why the machine has no meaning for what it is given. -/
inductive Refusal where
  /-- An instruction without a meaning yet; raised by exec alone. Safe. -/
  | notModelled (mnemonic : String)
  /-- The next schedule entry is a step word that names no step; raised by step alone. Safe: no agent of the
  spec takes such a step (30_encoding.md R99). -/
  | undecodable (e : DecodeError)
  deriving DecidableEq, Repr

/-- The machine (10_state.md R20). The last four fields are the model's own (notes/assumptions/1.md, 9.md, 12.md,
6.md). `call` is `none` in every state between two steps: it says where the machine stands inside a step. -/
structure State where
  launch : Launch
  ports : List Port
  life : Lifecycle
  cfg : RunConfig
  ring : Ring
  rd : ReadXfer
  wr : WriteXfer
  rsem : Bool
  wsem : Bool
  rtimer : Timer
  pwtimer : Timer
  ien : Bool
  dropcnt : Word
  faults : Word
  periph : Periph
  hmem : Memory
  sched : List Input
  busData : Word
  history : List Record
  call : Option SubCall
  deriving DecidableEq, Repr

/-- The machine right after reset (10_state.md R46, 70_reset_and_hazards.md R341), with the reference launch
values (notes/assumptions/3.md) and nothing written in host memory (notes/assumptions/5.md). -/
def State.reset : State :=
  { launch := { preemptStrict := Config.preemptStrict, boardReady := true, hmemAdmit := [(0, 0xFFFFFFFF)] },
    ports := List.replicate Config.nHost Port.reset,
    life := { opened := false, lstate := .closed },
    cfg := { readTimeout := 0#32, writeTimeout := 0#32, pwTimeout := 0#32, slaveAddr := 0#7 },
    ring := Ring.reset Config.ringC,
    rd := ReadXfer.reset, wr := WriteXfer.reset,
    rsem := false, wsem := false, rtimer := Timer.reset, pwtimer := Timer.reset,
    ien := false, dropcnt := 0#32, faults := 0#32,
    periph := Periph.reset, hmem := [], sched := [], busData := 0#32, history := [], call := none }

end Sys2Proof.Machine
end

