-- ==== Sys2Proof/Machine/Operands.lean ====
section
/-! DEFINITION. Operands and constants: the operand registers of a command (30_encoding.md R93 to R96), the
buffer positions the transfers reach (20_memory.md R74), result codes (60_exceptions.md R302) and the constants
of 00_scope.md R11. -/

namespace Sys2Proof.Machine

/-- WAIT_FOREVER (00_scope.md R11). -/
def waitForever : Word := 0xFFFFFFFF#32

/-- PLACEHOLDER, the byte sent on a stalled transmit (00_scope.md R11). -/
def placeholder : Byte := 0x00#8

/-- OPEN's result on success (60_exceptions.md R302). -/
def resHandle : Word := 1#32

/-- OPEN's null handle, CLOSE's result, and the count of a READ or WRITE of size 0 (60_exceptions.md R302). -/
def resZero : Word := 0#32

/-- BUSY, -1 (60_exceptions.md R302). -/
def resBusy : Word := 0xFFFFFFFF#32

/-- ERR_CLOSED, -2 (60_exceptions.md R302). -/
def resClosed : Word := 0xFFFFFFFE#32

/-- ERR_ILLEGAL, -3 (60_exceptions.md R302). -/
def resIllegal : Word := 0xFFFFFFFD#32

/-- The bit of FAULT for CLOSE_IN_FLIGHT (10_state.md R40). -/
def faultCloseInFlight : Nat := 0

/-- The bit of FAULT for READ_OVERLAP (10_state.md R40). -/
def faultReadOverlap : Nat := 1

/-- The bit of FAULT for BOOT_ORDER (10_state.md R40). -/
def faultBootOrder : Nat := 2

/-- The registers of port `h`; a port that does not exist reads as a reset port, and so has no step. -/
def State.port (s : State) (h : Nat) : Port := s.ports.getD h Port.reset

/-- Is there a port `h` (00_scope.md R7)? -/
def State.hasPort (s : State) (h : Nat) : Bool := decide (h < s.ports.length)

/-- SADDR, the slave-address operand of OPEN: `LCMD[h][6:0]` (30_encoding.md R94). -/
def Port.saddr (p : Port) : BitVec 7 := p.lcmd.extractLsb' 0 7

/-- Is a READ timeout one that arms RTIMER (42_read_engine.md R170, R171)? -/
def armsReadTimer (timeout : Word) : Bool := decide (timeout ≠ 0#32) && decide (timeout ≠ waitForever)

/-- Where RD_LOOP stores the next byte: `READ_BUF + (READ_SIZE - READ_COUNT)` mod 2^32 (20_memory.md R74). -/
def ReadXfer.nextAddr (x : ReadXfer) : Word := x.buf + (x.size - x.count)

/-- Where PRODUCER_STEP reads the next byte: `WRITE_BUF + (WRITE_SIZE - WRITE_COUNT)` mod 2^32
(20_memory.md R74). -/
def WriteXfer.nextAddr (x : WriteXfer) : Word := x.buf + (x.size - x.count)

end Sys2Proof.Machine
end

