-- ==== Sys2Proof/Machine/Flags.lean ====
section
/-! DEFINITION. Flags and conditions: the status words the host reads (10_state.md R43 to R45), the interrupt
request (44_interrupt_handler.md R245), host-memory admission (20_memory.md R71) and the conditions under which
the steps of an agent are enabled (60_exceptions.md R301, 00_scope.md R9). -/

namespace Sys2Proof.Machine

/-- One bit at its place in a status word. -/
def bitAt (b : Bool) (n : Nat) : Word := (BitVec.ofBool b).setWidth 32 <<< n

/-- The phase code (10_state.md R24). -/
def Phase.code : Phase → BitVec 4
  | .idle => 0#4
  | .opBuild => 1#4
  | .rdLoop => 2#4
  | .rdWait => 3#4
  | .rdWoken => 4#4
  | .rdExit => 5#4
  | .wrPendCheck => 6#4
  | .wrDrain => 7#4
  | .wrCheck => 8#4
  | .wrWait => 9#4
  | .wrExit => 10#4

/-- The phases of a WRITE in flight, which CLOSE looks for (45_lifecycle.md R274). -/
def Phase.inWrite : Phase → Bool
  | .idle => false
  | .opBuild => false
  | .rdLoop => false
  | .rdWait => false
  | .rdWoken => false
  | .rdExit => false
  | .wrPendCheck => true
  | .wrDrain => true
  | .wrCheck => true
  | .wrWait => true
  | .wrExit => true

/-- The LSTATE code (10_state.md R27). -/
def LState.code : LState → BitVec 2
  | .closed => 0#2
  | .opening => 1#2
  | .opened => 2#2

/-- PMIS, the masked interrupt causes (10_state.md R41). -/
def Periph.pmis (p : Periph) : BitVec 8 := p.pris &&& p.pim

/-- PSTAT, the slave-activity status (10_state.md R41): bit 1 TREQ, bit 0 RREQ. -/
def Periph.pstat (p : Periph) : BitVec 2 := BitVec.ofBool p.treq ++ BitVec.ofBool p.rreq

/-- The interrupt request (44_interrupt_handler.md R245). -/
def State.irq (s : State) : Bool := s.ien && decide (s.periph.pmis ≠ 0#8)

/-- Is the address in HMEM_ADMIT (20_memory.md R71)? -/
def State.admitted (s : State) (a : Word) : Bool :=
  s.launch.hmemAdmit.any fun r => decide (r.1 ≤ a.toNat) && decide (a.toNat ≤ r.2)

/-- Would PRODUCER_STEP make only admitted accesses (43_write_engine.md R210, 20_memory.md R71)? -/
def State.producerAdmitted (s : State) : Bool :=
  decide (s.wr.count = 0#32) || s.admitted s.wr.nextAddr

/-- ISR_SERVICE is enabled: the line requests it and its host-memory read, if it makes one, is admitted
(60_exceptions.md R301, 44_interrupt_handler.md R245, R246). -/
def State.isrEnabled (s : State) : Bool := s.irq && (!s.periph.treq || s.producerAdmitted)

/-- Host steps, timer callbacks and TICK are held off: PREEMPT_STRICT is on and ISR_SERVICE is enabled
(00_scope.md R9). -/
def State.heldOff (s : State) : Bool := s.launch.preemptStrict && s.isrEnabled

/-- The host agent of port `h` may take a step (60_exceptions.md R301). -/
def State.hostMay (s : State) (h : Nat) : Bool := s.hasPort h && !s.heldOff

/-- The step of port `h` at phase `p` is selected and not held off (60_exceptions.md R301). -/
def State.atPhase (s : State) (h : Nat) (p : Phase) : Bool :=
  s.hostMay h && decide ((s.port h).phase = p)

/-- Port `h` stands inside a command issue, after `BUSY[h] <- 1` and before the command's own body
(45_lifecycle.md R289), and its command word decodes to one that `want` accepts. -/
def State.issuing (s : State) (h : Nat) (want : Command → Bool) : Bool :=
  s.hasPort h && (s.port h).busy && decide ((s.port h).phase = .idle) &&
    match decodeCommand (s.port h).lcmd (s.port h).arg1 with
    | .ok k => want k
    | .error _ => false

/-- GET stands called by RD_LOOP of a port (40_ring_buffer.md R122). -/
def State.getCalled (s : State) : Bool :=
  match s.call with
  | some (.get _) => true
  | some (.put _) => false
  | some (.producer _) => false
  | none => false

/-- PRODUCER_STEP stands called with a request pending, as every caller calls it (43_write_engine.md R202, R210;
44_interrupt_handler.md R243, R246). -/
def State.producerCalled (s : State) : Bool :=
  match s.call with
  | some (.producer _) => s.periph.pen && s.periph.treq
  | some (.put _) => false
  | some (.get _) => false
  | none => false

/-- A WRITE wait whose bound has run out (43_write_engine.md R206). -/
def Port.waitExpired (p : Port) : Bool := !p.wwaitInf && decide (p.wwaitRem = 0#32)

/-- A transfer is in flight, in the sense of CLOSE's check (45_lifecycle.md R274). -/
def State.inFlight (s : State) : Bool := s.rd.active || s.ports.any fun p => p.phase.inWrite

/-- BSTAT (10_state.md R44). -/
def State.bstat (s : State) : Word :=
  bitAt s.life.opened 0 ||| (s.life.lstate.code.setWidth 32 <<< 1) ||| bitAt s.ien 3 ||| bitAt s.rd.timedOut 4 |||
  bitAt s.rd.wakePending 5 ||| bitAt s.rsem 6 ||| bitAt s.wsem 7 ||| bitAt s.rd.active 8 |||
  bitAt s.periph.pen 9 ||| bitAt s.periph.rreq 10 ||| bitAt s.periph.treq 11

/-- TMRSTAT (10_state.md R43). -/
def State.tmrstat (s : State) : Word :=
  bitAt s.rtimer.armed 0 ||| bitAt s.rtimer.exp 1 ||| bitAt s.pwtimer.armed 2 ||| bitAt s.pwtimer.exp 3

/-- PORTSTAT (10_state.md R45). -/
def Port.portstat (p : Port) : Word :=
  bitAt p.busy 0 ||| bitAt p.ovr 1 ||| (p.phase.code.setWidth 32 <<< 4)

end Sys2Proof.Machine
end

