-- ==== Sys2Proof/Machine/Ops.lean ====
section
/-! DEFINITION. The operations the steps share: host memory (20_memory.md), ports, the primitives of 00_scope.md
R15 (Post, Take, Arm, Stop, raise Fault, finish), the peripheral's data register (44_interrupt_handler.md R242,
R243), the event history (60_exceptions.md R310), the atomic step and the reset (70_reset_and_hazards.md R340).
The block has no traps and no exception entry or return (60_exceptions.md R305, R311, R312). -/

namespace Sys2Proof.Machine

/-! ### Host memory -/

/-- The byte at an address, if one was written (20_memory.md R72). -/
def Memory.read : Memory → Nat → Option Byte
  | [], _ => none
  | (k, b) :: m, a => if k = a then some b else Memory.read m a

/-- Set the byte at an address, keeping the list in rising order (20_memory.md R73). -/
def Memory.write : Memory → Nat → Byte → Memory
  | [], a, v => [(a, v)]
  | (k, b) :: m, a, v =>
    if a < k then (a, v) :: (k, b) :: m
    else if a = k then (a, v) :: m
    else (k, b) :: Memory.write m a v

/-- The canonical form: addresses strictly rising, all of them host addresses (20_memory.md R70). -/
abbrev Memory.wf (m : Memory) : Prop :=
  m.Pairwise (fun c d => c.1 < d.1) ∧ ∀ c ∈ m, c.1 < 2 ^ 32

/-! ### Atomic steps -/

/-- What an attempt at an atomic step, or at a part of one, comes to: a value, an access that is not admitted
(20_memory.md R71), or the read of a cell that holds no value (10_state.md R47). -/
inductive Attempt (α : Type) where
  | ok (a : α)
  | stuck
  | unwritten
  deriving DecidableEq, Repr

/-- Go on with the value of a part. -/
def Attempt.andThen {α β : Type} (x : Attempt α) (f : α → Attempt β) : Attempt β :=
  match x with
  | .ok a => f a
  | .stuck => .stuck
  | .unwritten => .unwritten

/-- The atomic step from `s`: nothing of a stuck step happens (20_memory.md R71), and the read of a cell without a
value stops the model (60_exceptions.md R306). -/
def atomicStep (s : State) (x : Attempt State) : Host.Outcome State Fault Refusal :=
  match x with
  | .ok t => .next t
  | .stuck => .next s
  | .unwritten => .fault .modelUnwritten

/-- `MemRead(a, 1)` (20_memory.md R71, R72). -/
def State.memRead (s : State) (a : Word) : Attempt Byte :=
  if s.admitted a then
    match Memory.read s.hmem a.toNat with
    | some b => .ok b
    | none => .unwritten
  else .stuck

/-- `MemWrite(a, 1, v)` (20_memory.md R71, R73). -/
def State.memWrite (s : State) (a : Word) (v : Byte) : Attempt State :=
  if s.admitted a then .ok { s with hmem := Memory.write s.hmem a.toNat v } else .stuck

/-! ### Ports -/

/-- Change the registers of port `h`; nothing where there is no such port. -/
def State.updPort (s : State) (h : Nat) (f : Port → Port) : State :=
  { s with ports := s.ports.modify h f }

/-- `phase[h] <- p` (00_scope.md R15). -/
def State.goto (s : State) (h : Nat) (p : Phase) : State :=
  s.updPort h fun q => { q with phase := p }

/-- `finish(h, r)` (45_lifecycle.md R290). -/
def State.finish (s : State) (h : Nat) (r : Word) : State :=
  s.updPort h fun q => { q with result := r, phase := .idle, busy := false }

/-- `raise Fault(F)`: set a sticky bit (60_exceptions.md R306). -/
def State.raiseFault (s : State) (n : Nat) : State :=
  { s with faults := s.faults ||| bitAt true n }

/-! ### The event history -/

/-- Record a step of an agent (60_exceptions.md R310). -/
def State.recordStep (s : State) (kind : BitVec 8) (agent : Agent) (port : Option Nat) (operands : List Word) :
    State :=
  { s with history := s.history ++ [⟨kind, agent, port, operands, none⟩] }

/-- Record a sub-operation with its outcome (60_exceptions.md R310). -/
def State.recordSub (s : State) (kind : BitVec 8) (agent : Agent) (port : Option Nat) (operands : List Word)
    (o : SubOutcome) : State :=
  { s with history := s.history ++ [⟨kind, agent, port, operands, some o⟩] }

/-! ### Calls of sub-operations -/

/-- The call is answered: the sub-operation returns (notes/assumptions/6.md). -/
def State.endCall (s : State) : State := { s with call := none }

/-! ### Wake signals (10_state.md R36) -/

/-- The two binary wake signals (10_state.md R34). -/
inductive Signal where
  | rsem
  | wsem
  deriving DecidableEq, Repr

/-- `Post(S)`. -/
def State.post (s : State) : Signal → State
  | .rsem => { s with rsem := true }
  | .wsem => { s with wsem := true }

/-- `Take(S)`. -/
def State.take (s : State) : Signal → State
  | .rsem => { s with rsem := false }
  | .wsem => { s with wsem := false }

/-! ### Timers (41_timeout_timer.md R140 to R142) -/

/-- `Arm(T, n)`. -/
def Timer.arm (_t : Timer) (n : Word) : Timer :=
  { armed := true, rem := if n = 0#32 then 1#32 else n, exp := false }

/-- `Stop(T)`. -/
def Timer.stop (_t : Timer) : Timer := { armed := false, rem := 0#32, exp := false }

/-- What a TICK does to one timer. -/
def Timer.tick (t : Timer) : Timer :=
  if t.armed then
    let r := t.rem - 1#32
    if r = 0#32 then { armed := false, rem := r, exp := true } else { t with rem := r }
  else t

/-- What a TICK does to one port's write wait. -/
def Port.tick (p : Port) : Port :=
  if p.phase = .wrWait ∧ p.wwaitInf = false ∧ p.wwaitRem ≠ 0#32 then { p with wwaitRem := p.wwaitRem - 1#32 }
  else p

/-! ### The ring (40_ring_buffer.md) -/

/-- PUT: `none` is Full (40_ring_buffer.md R120). -/
def Ring.put (r : Ring) (b : Byte) : Option Ring :=
  if r.cnt = r.cap then none
  else some { mem := r.mem.set r.wr (some b), rd := r.rd, wr := (r.wr + 1) % r.cap, cnt := r.cnt + 1 }

/-- What GET answers (40_ring_buffer.md R121); `noValue` is a cell that was never written (10_state.md R47). -/
inductive GetResult where
  | empty
  | noValue
  | ok (b : Byte) (r : Ring)
  deriving DecidableEq, Repr

/-- GET (40_ring_buffer.md R121). -/
def Ring.get (r : Ring) : GetResult :=
  if r.cnt = 0 then .empty
  else
    match r.mem[r.rd]?.getD none with
    | some b => .ok b { mem := r.mem, rd := (r.rd + 1) % r.cap, wr := r.wr, cnt := r.cnt - 1 }
    | none => .noValue

/-! ### The peripheral's data register -/

/-- `PeriphReadData()`: what it leaves; the byte it returns is `prxd` (44_interrupt_handler.md R242). -/
def Periph.readData (p : Periph) : Periph := { p with rreq := false }

/-- `PeriphWriteData(v)` (44_interrupt_handler.md R243). -/
def Periph.writeData (p : Periph) (v : Byte) : Periph :=
  if p.pen && p.treq then { p with txwire := p.txwire ++ [v], treq := false } else p

/-! ### Reset -/

/-- The reset event (70_reset_and_hazards.md R340 to R342): every piece of block state to its reset value;
the launch values, host memory and the model's own fields stay (notes/assumptions/17.md), but for `call`: a reset
comes between two steps. -/
def State.applyReset (s : State) : State :=
  { launch := s.launch, ports := s.ports.map fun _ => Port.reset,
    life := State.reset.life, cfg := State.reset.cfg, ring := Ring.reset s.ring.cap,
    rd := State.reset.rd, wr := State.reset.wr, rsem := State.reset.rsem, wsem := State.reset.wsem,
    rtimer := State.reset.rtimer, pwtimer := State.reset.pwtimer, ien := State.reset.ien,
    dropcnt := State.reset.dropcnt, faults := State.reset.faults, periph := State.reset.periph,
    hmem := s.hmem, sched := s.sched, busData := s.busData, history := s.history, call := none }

end Sys2Proof.Machine
end

