-- ==== Sys2Proof/Machine/SubOps.lean ====
section
/-! DEFINITION. The sub-operations PUT and GET (40_ring_buffer.md R120, R121) and PRODUCER_STEP
(43_write_engine.md R210). Each is one operation over the state that the steps containing it share; its row of
the opcode table has a meaning of its own over it (notes/assumptions/6.md). -/

namespace Sys2Proof.Machine

/-- PUT(b): whether it answered Ok, and the state after it (40_ring_buffer.md R120). -/
def State.putByte (s : State) (agent : Agent) (b : Byte) : Bool × State :=
  match s.ring.put b with
  | some r => (true, { s with ring := r }.recordSub 0x80#8 agent none [b.setWidth 32] .putOk)
  | none => (false, s.recordSub 0x80#8 agent none [b.setWidth 32] .putFull)

/-- GET(): the byte (`none` is Empty) and the state after it (40_ring_buffer.md R121). -/
def State.getByte (s : State) (agent : Agent) (port : Option Nat) : Attempt (Option Byte × State) :=
  match s.ring.get with
  | .empty => .ok (none, s.recordSub 0x81#8 agent port [] .gotEmpty)
  | .noValue => .unwritten
  | .ok b r => .ok (some b, { s with ring := r }.recordSub 0x81#8 agent port [] (.gotByte b))

/-- Post WSEM when no byte of the write is left, the last line of PRODUCER_STEP (43_write_engine.md R210). -/
def State.postIfWritten (s : State) : State :=
  if s.wr.count = 0#32 then s.post .wsem else s

/-- PRODUCER_STEP (43_write_engine.md R210). -/
def State.produce (s : State) (agent : Agent) (port : Option Nat) : Attempt State :=
  if s.wr.count ≠ 0#32 then
    (s.memRead s.wr.nextAddr).andThen fun v =>
      .ok ({ s with periph := s.periph.writeData v,
                    wr := { s.wr with count := s.wr.count - 1#32 } }.postIfWritten.recordSub
            0x82#8 agent port [] (.sentByte v))
  else
    .ok ({ s with pwtimer := s.pwtimer.arm s.cfg.pwTimeout }.postIfWritten.recordSub 0x82#8 agent port [] .noData)

/-! ### The rows

A sub-operation is no step of an agent: "runs only inside" its callers, "never on its own" (40_ring_buffer.md R122,
43_write_engine.md R210). Its row runs where the machine stands inside a caller's step, at the call, and the call
returns with it. No state between two steps is such a state. -/

/-- The row PUT, called by ISR_SERVICE with this byte. -/
def execPut (b : Byte) (s : State) : Host.Outcome State Fault Refusal :=
  if s.call = some (.put b) then .next (s.endCall.putByte .isr b).2 else .next s

/-- The row GET, called by RD_LOOP of a port. It is part of a step that has begun, so PREEMPT_STRICT holds off its
caller and not the row (notes/assumptions/6.md, 10.md). -/
def execGet (s : State) : Host.Outcome State Fault Refusal :=
  match s.call with
  | some (.get h) => atomicStep s ((s.endCall.getByte .host (some h)).andThen fun r => .ok r.2)
  | some (.put _) => .next s
  | some (.producer _) => .next s
  | none => .next s

/-- The agent inside whose step PRODUCER_STEP was called (43_write_engine.md R210, 60_exceptions.md R315). -/
def producerAgent (port : Option Nat) : Agent := if port.isSome then .host else .isr

/-- The row PRODUCER_STEP, called by ISR_SERVICE or WR_PEND_CHECK with a request pending. -/
def execProducerStep (s : State) : Host.Outcome State Fault Refusal :=
  match s.call with
  | some (.producer port) =>
    if s.periph.pen && s.periph.treq then atomicStep s (s.endCall.produce (producerAgent port) port) else .next s
  | some (.put _) => .next s
  | some (.get _) => .next s
  | none => .next s

/-- The call at which an instruction that is a sub-operation runs; none for a step of an agent. -/
def callOf : Instr → Option SubCall
  | .openCmd _ _ => none
  | .closeCmd _ => none
  | .readCmd _ => none
  | .writeCmd _ => none
  | .openIssue _ => none
  | .closeIssue _ => none
  | .readIssue _ => none
  | .writeIssue _ => none
  | .illegalCommand _ _ => none
  | .opBuild _ => none
  | .rdLoop _ => none
  | .rdWaitWake _ => none
  | .rdWoken _ => none
  | .rdExit _ => none
  | .wrPendCheck _ => none
  | .wrDrain _ => none
  | .wrCheck _ => none
  | .wrWaitWake _ => none
  | .wrWaitTimeout _ => none
  | .wrExit _ => none
  | .isrService => none
  | .rtExpire => none
  | .pwExpire => none
  | .tick => none
  | .rxArrive _ => none
  | .txRequest => none
  | .otherCause _ => none
  | .put b => some (.put b)
  | .get => some (.get 0)
  | .producerStep => some (.producer none)

/-- Stand at the call of an instruction that is a sub-operation; nothing for a step of an agent. -/
def State.atCallOf (s : State) (i : Option Instr) : State :=
  match i.bind callOf with
  | some c => { s with call := some c }
  | none => s

end Sys2Proof.Machine
end

