-- ==== Sys2Proof/Machine/ReadEngine.lean ====
section
/-! DEFINITION. The read engine: READ's issue body and its phases (42_read_engine.md R171 to R176). -/

namespace Sys2Proof.Machine

/-- READ_ISSUE(h), the body of READ's issue step (42_read_engine.md R171). -/
def State.readIssue (s0 : State) (h : Nat) : State :=
  let p := s0.port h
  let s := s0.recordStep 0x03#8 .host (some h) [p.arg0, p.arg1]
  if s.life.lstate ≠ .opened then s.finish h resClosed
  else if p.arg1 = 0#32 then s.finish h resZero
  else
    let s1 := if s.rd.active then s.raiseFault faultReadOverlap else s
    let s2 := { s1 with rd := { s1.rd with active := true, buf := p.arg0, size := p.arg1, count := p.arg1,
                                           timedOut := false } }.take .rsem
    let s3 := if armsReadTimer s2.cfg.readTimeout then { s2 with rtimer := s2.rtimer.arm s2.cfg.readTimeout } else s2
    s3.goto h .rdLoop

/-- The row READ_ISSUE: the body, inside the issue of a READ command (notes/assumptions/7.md). -/
def execReadIssue (h : Nat) (s : State) : Host.Outcome State Fault Refusal :=
  if s.issuing h (fun k => k = .readC) then .next (s.readIssue h) else .next s

/-- RD_LOOP(h) (42_read_engine.md R172). -/
def State.rdLoop (s0 : State) (h : Nat) : Attempt State :=
  let s := s0.recordStep 0x22#8 .host (some h) []
  if s.rd.count = 0#32 then .ok (s.goto h .rdExit)
  else
    (s.getByte .host (some h)).andThen fun r =>
      match r with
      | (some b, t) =>
        (t.memWrite t.rd.nextAddr b).andThen fun u => .ok { u with rd := { u.rd with count := u.rd.count - 1#32 } }
      | (none, t) =>
        .ok ({ t with rd := { t.rd with wakePending := true } }.goto h
              (if t.cfg.readTimeout = 0#32 then .rdExit else .rdWait))

/-- RD_LOOP. -/
def execRdLoop (h : Nat) (s : State) : Host.Outcome State Fault Refusal :=
  if s.atPhase h .rdLoop then atomicStep s (s.rdLoop h) else .next s

/-- RD_WAIT wake (42_read_engine.md R174). -/
def execRdWaitWake (h : Nat) (s : State) : Host.Outcome State Fault Refusal :=
  if s.atPhase h .rdWait && s.rsem then
    .next (((s.recordStep 0x23#8 .host (some h) []).take .rsem).goto h .rdWoken)
  else .next s

/-- RD_WOKEN(h) (42_read_engine.md R175). -/
def execRdWoken (h : Nat) (s : State) : Host.Outcome State Fault Refusal :=
  if s.atPhase h .rdWoken then
    let t := s.recordStep 0x24#8 .host (some h) []
    if t.rd.timedOut then .next ({ t with rd := { t.rd with wakePending := false } }.goto h .rdExit)
    else .next (t.goto h .rdLoop)
  else .next s

/-- RD_EXIT(h) (42_read_engine.md R176). -/
def execRdExit (h : Nat) (s : State) : Host.Outcome State Fault Refusal :=
  if s.atPhase h .rdExit then
    let t := s.recordStep 0x25#8 .host (some h) []
    .next ({ t with rtimer := t.rtimer.stop, rd := { t.rd with active := false } }.finish h (t.rd.size - t.rd.count))
  else .next s

end Sys2Proof.Machine
end

