-- ==== Sys2Proof/Machine/WriteEngine.lean ====
section
/-! DEFINITION. The write engine: WRITE's issue body and its phases (43_write_engine.md R201 to R207). -/

namespace Sys2Proof.Machine

/-- WRITE_ISSUE(h), the body of WRITE's issue step (43_write_engine.md R201). -/
def State.writeIssue (s0 : State) (h : Nat) : State :=
  let p := s0.port h
  let s := s0.recordStep 0x04#8 .host (some h) [p.arg0, p.arg1]
  if s.life.lstate ≠ .opened then s.finish h resClosed
  else if p.arg1 = 0#32 then s.finish h resZero
  else if s.wr.count ≠ 0#32 then s.finish h resBusy
  else { s with wr := { buf := p.arg0, size := p.arg1, count := p.arg1 } }.goto h .wrPendCheck

/-- The row WRITE_ISSUE: the body, inside the issue of a WRITE command (notes/assumptions/7.md). -/
def execWriteIssue (h : Nat) (s : State) : Host.Outcome State Fault Refusal :=
  if s.issuing h (fun k => k = .writeC) then .next (s.writeIssue h) else .next s

/-- WR_PEND_CHECK(h) (43_write_engine.md R202). -/
def State.wrPendCheck (s0 : State) (h : Nat) : Attempt State :=
  let s := s0.recordStep 0x36#8 .host (some h) []
  if s.periph.pen && s.periph.treq then
    ({ s with pwtimer := s.pwtimer.stop }.produce .host (some h)).andThen fun t => .ok (t.goto h .wrDrain)
  else .ok (s.goto h .wrDrain)

/-- WR_PEND_CHECK. -/
def execWrPendCheck (h : Nat) (s : State) : Host.Outcome State Fault Refusal :=
  if s.atPhase h .wrPendCheck then atomicStep s (s.wrPendCheck h) else .next s

/-- WR_DRAIN (43_write_engine.md R203). -/
def execWrDrain (h : Nat) (s : State) : Host.Outcome State Fault Refusal :=
  if s.atPhase h .wrDrain then
    .next (((s.recordStep 0x37#8 .host (some h) []).take .wsem).goto h .wrCheck)
  else .next s

/-- WR_CHECK(h) (43_write_engine.md R204). -/
def State.wrCheck (s0 : State) (h : Nat) : State :=
  let s := s0.recordStep 0x38#8 .host (some h) []
  if s.wr.count = 0#32 then s.goto h .wrExit
  else if s.cfg.writeTimeout = 0#32 then (s.take .wsem).goto h .wrExit
  else
    s.updPort h fun q =>
      { q with wwaitInf := decide (s.cfg.writeTimeout = waitForever),
               wwaitRem := if s.cfg.writeTimeout = waitForever then 0#32 else s.cfg.writeTimeout,
               phase := .wrWait }

/-- WR_CHECK. -/
def execWrCheck (h : Nat) (s : State) : Host.Outcome State Fault Refusal :=
  if s.atPhase h .wrCheck then .next (s.wrCheck h) else .next s

/-- WR_WAIT wake (43_write_engine.md R205). -/
def execWrWaitWake (h : Nat) (s : State) : Host.Outcome State Fault Refusal :=
  if s.atPhase h .wrWait && s.wsem then
    .next (((s.recordStep 0x39#8 .host (some h) []).take .wsem).goto h .wrExit)
  else .next s

/-- WR_WAIT timeout (43_write_engine.md R206). -/
def execWrWaitTimeout (h : Nat) (s : State) : Host.Outcome State Fault Refusal :=
  if s.atPhase h .wrWait && (s.port h).waitExpired then
    .next ((s.recordStep 0x3A#8 .host (some h) []).goto h .wrExit)
  else .next s

/-- WR_EXIT(h) (43_write_engine.md R207). -/
def State.wrExit (s0 : State) (h : Nat) : State :=
  let s := s0.recordStep 0x3B#8 .host (some h) []
  let r := s.wr.size - s.wr.count
  ({ s with wr := { s.wr with count := 0#32 } }.updPort h fun q =>
    { q with wwaitRem := 0#32, wwaitInf := false }).finish h r

/-- WR_EXIT. -/
def execWrExit (h : Nat) (s : State) : Host.Outcome State Fault Refusal :=
  if s.atPhase h .wrExit then .next (s.wrExit h) else .next s

end Sys2Proof.Machine
end

