-- ==== Sys2Proof/Machine/Lifecycle.lean ====
section
/-! DEFINITION. The lifecycle (OPEN, CLOSE) and the issue of commands (45_lifecycle.md). -/

namespace Sys2Proof.Machine

/-- OPEN_ISSUE(h), the test-and-set of `opened` (45_lifecycle.md R271). -/
def State.openIssue (s0 : State) (h : Nat) : State :=
  let p := s0.port h
  let s := s0.recordStep 0x01#8 .host (some h) [p.arg0, p.arg1, p.arg2, p.saddr.setWidth 32]
  if s.life.opened then s.finish h resZero
  else
    let s1 := if s.launch.boardReady then s else s.raiseFault faultBootOrder
    { s1 with life := { opened := true, lstate := .opening } }.goto h .opBuild

/-- The row OPEN_ISSUE: the body, inside the issue of an OPEN command (notes/assumptions/7.md). -/
def execOpenIssue (h : Nat) (s : State) : Host.Outcome State Fault Refusal :=
  if s.issuing h Command.isOpen then .next (s.openIssue h) else .next s

/-- OP_BUILD(h), in the document's construction order (45_lifecycle.md R272). -/
def State.opBuild (s0 : State) (h : Nat) : State :=
  let p := s0.port h
  let s := s0.recordStep 0x11#8 .host (some h) []
  { s with
    ring := { mem := s.ring.mem, rd := 0, wr := 0, cnt := 0 },
    rsem := false, wsem := false,
    rtimer := s.rtimer.stop, pwtimer := s.pwtimer.stop,
    cfg := { readTimeout := p.arg0, writeTimeout := p.arg1, pwTimeout := p.arg2, slaveAddr := p.saddr },
    rd := ReadXfer.reset, wr := WriteXfer.reset, dropcnt := 0#32,
    periph := { s.periph with psaddr := p.saddr, rreq := false, treq := false, pris := 0#8, pim := 0x01#8,
                              pen := true },
    ien := true,
    life := { s.life with lstate := .opened } }.finish h resHandle

/-- OP_BUILD. -/
def execOpBuild (h : Nat) (s : State) : Host.Outcome State Fault Refusal :=
  if s.atPhase h .opBuild then .next (s.opBuild h) else .next s

/-- CLOSE_ISSUE(h) (45_lifecycle.md R274). -/
def State.closeIssue (s0 : State) (h : Nat) : State :=
  let s := s0.recordStep 0x02#8 .host (some h) []
  if s.life.lstate ≠ .opened then s.finish h resZero
  else
    let s1 := if s.inFlight then s.raiseFault faultCloseInFlight else s
    { s1 with
      ien := false,
      periph := { s1.periph with pen := false, rreq := false, treq := false, pris := 0#8, pim := 0#8 },
      rsem := false, wsem := false,
      rtimer := s1.rtimer.stop, pwtimer := s1.pwtimer.stop,
      life := { opened := false, lstate := .closed } }.finish h resZero

/-- The row CLOSE_ISSUE: the body, inside the issue of a CLOSE command (notes/assumptions/7.md). -/
def execCloseIssue (h : Nat) (s : State) : Host.Outcome State Fault Refusal :=
  if s.issuing h (fun k => k = .closeC) then .next (s.closeIssue h) else .next s

/-! ### Command issue -/

/-- A command's own body, in its issue step (45_lifecycle.md R289). -/
def State.issueBody (s : State) (h : Nat) : Command → State
  | .openC _ => s.openIssue h
  | .closeC => s.closeIssue h
  | .readC => s.readIssue h
  | .writeC => s.writeIssue h

/-- `LCMD[h] <- w; OVR[h] <- 0` (45_lifecycle.md R289). -/
def State.latchCmd (s : State) (h : Nat) (w : Word) : State :=
  s.updPort h fun q => { q with lcmd := w, ovr := false }

/-- `BUSY[h] <- 1` (45_lifecycle.md R289). -/
def State.setBusy (s : State) (h : Nat) : State :=
  s.updPort h fun q => { q with busy := true }

/-- `OVR[h] <- 1`, what a write to a busy port does (10_state.md R25). -/
def State.overrun (s : State) (h : Nat) : State :=
  s.updPort h fun q => { q with ovr := true }

/-- CMD_WRITE(h, w) (45_lifecycle.md R289), its illegal case as R291 has it. -/
def State.cmdWrite (s : State) (h : Nat) (w : Word) : State :=
  if (s.port h).busy then s.overrun h
  else
    let s1 := s.latchCmd h w
    match decodeCommand w (s1.port h).arg1 with
    | .error _ => (s1.recordStep 0x0F#8 .host (some h) [w]).updPort h fun q => { q with result := resIllegal }
    | .ok k => (s1.setBusy h).issueBody h k

/-- A host's write of a word to CMD[h], when that host may take a step. -/
def State.hostCmd (s : State) (h : Nat) (w : Word) : State :=
  if s.hostMay h then s.cmdWrite h w else s

/-- The row OPEN: the host writes the OPEN word. -/
def execOpenCmd (h : Nat) (saddr : BitVec 7) (s : State) : Host.Outcome State Fault Refusal :=
  .next (s.hostCmd h (Command.openC saddr).word)

/-- The row CLOSE: the host writes the CLOSE word. -/
def execCloseCmd (h : Nat) (s : State) : Host.Outcome State Fault Refusal :=
  .next (s.hostCmd h Command.closeC.word)

/-- The row READ: the host writes the READ word. -/
def execReadCmd (h : Nat) (s : State) : Host.Outcome State Fault Refusal :=
  .next (s.hostCmd h Command.readC.word)

/-- The row WRITE: the host writes the WRITE word. -/
def execWriteCmd (h : Nat) (s : State) : Host.Outcome State Fault Refusal :=
  .next (s.hostCmd h Command.writeC.word)

/-- The row ILLEGAL_COMMAND: the host writes a word that decodes ILLEGAL (45_lifecycle.md R291); a word that is
legal on this port is another command, and no step of this row (notes/assumptions/19.md). -/
def execIllegalCommand (h : Nat) (w : Word) (s : State) : Host.Outcome State Fault Refusal :=
  match decodeCommand w (s.port h).arg1 with
  | .error _ => .next (s.hostCmd h w)
  | .ok _ => .next s

end Sys2Proof.Machine
end

