-- ==== Sys2Proof/Machine/Bus.lean ====
section
/-! DEFINITION. The host register bus (10_state.md R25, R42 to R45) and a host task's store to host memory
(20_memory.md R72, R88). Command issue by a write of CMD[h] is in Lifecycle.lean. -/

namespace Sys2Proof.Machine

/-- A register that an aligned 32-bit access reaches (10_state.md R42, R43, R45). -/
inductive Reg where
  | bstat
  | dropcnt
  | ringcnt
  | wrcnt
  | rdcnt
  | cfgRt
  | cfgWt
  | cfgPwt
  | cfgSaddr
  | fault
  | tmrstat
  | rtRem
  | pwRem
  | ringcap
  | nports
  | cmd (h : Nat)
  | arg0 (h : Nat)
  | arg1 (h : Nat)
  | arg2 (h : Nat)
  | result (h : Nat)
  | portstat (h : Nat)
  deriving DecidableEq, Repr

/-- The global register at an offset (10_state.md R43). -/
def globalReg (n : Nat) : Option Reg :=
  match n with
  | 0x000 => some .bstat
  | 0x004 => some .dropcnt
  | 0x008 => some .ringcnt
  | 0x00C => some .wrcnt
  | 0x010 => some .rdcnt
  | 0x014 => some .cfgRt
  | 0x018 => some .cfgWt
  | 0x01C => some .cfgPwt
  | 0x020 => some .cfgSaddr
  | 0x024 => some .fault
  | 0x028 => some .tmrstat
  | 0x02C => some .rtRem
  | 0x030 => some .pwRem
  | 0x034 => some .ringcap
  | 0x038 => some .nports
  | _ => none

/-- The register at an offset from the base of port `h` (10_state.md R45). -/
def portReg (h n : Nat) : Option Reg :=
  match n with
  | 0x00 => some (.cmd h)
  | 0x04 => some (.arg0 h)
  | 0x08 => some (.arg1 h)
  | 0x0C => some (.arg2 h)
  | 0x10 => some (.result h)
  | 0x14 => some (.portstat h)
  | _ => none

/-- The register a bus access reaches; none where it is narrower than 32 bits or misaligned, or where the offset
names no register (10_state.md R42). -/
def regAt (off : BitVec 12) (width : BusWidth) : Option Reg :=
  let n := off.toNat
  if width = .word then
    if n < 0x100 then globalReg n
    else if (n - 0x100) / 0x20 < Config.maxHost then portReg ((n - 0x100) / 0x20) ((n - 0x100) % 0x20)
    else none
  else none

/-- What a read of a register returns (10_state.md R43 to R45); a register of a port that does not exist reads 0
(R42). -/
def State.readReg (s : State) (r : Reg) : Word :=
  match r with
  | .bstat => s.bstat
  | .dropcnt => s.dropcnt
  | .ringcnt => BitVec.ofNat 32 s.ring.cnt
  | .wrcnt => s.wr.count
  | .rdcnt => s.rd.count
  | .cfgRt => s.cfg.readTimeout
  | .cfgWt => s.cfg.writeTimeout
  | .cfgPwt => s.cfg.pwTimeout
  | .cfgSaddr => s.cfg.slaveAddr.setWidth 32
  | .fault => s.faults &&& 0x7#32
  | .tmrstat => s.tmrstat
  | .rtRem => s.rtimer.rem
  | .pwRem => s.pwtimer.rem
  | .ringcap => BitVec.ofNat 32 s.ring.cap
  | .nports => BitVec.ofNat 32 s.ports.length
  | .cmd _ => 0#32
  | .arg0 h => if s.hasPort h then (s.port h).arg0 else 0#32
  | .arg1 h => if s.hasPort h then (s.port h).arg1 else 0#32
  | .arg2 h => if s.hasPort h then (s.port h).arg2 else 0#32
  | .result h => if s.hasPort h then (s.port h).result else 0#32
  | .portstat h => if s.hasPort h then (s.port h).portstat else 0#32

/-- What a bus read returns (10_state.md R42). -/
def State.busValue (s : State) (off : BitVec 12) (width : BusWidth) : Word :=
  match regAt off width with
  | some r => s.readReg r
  | none => 0#32

/-- A write of an operand register: stored when the port is idle, an overrun when it is busy (10_state.md R25). -/
def State.argWrite (s : State) (h : Nat) (f : Port → Port) : State :=
  if (s.port h).busy then s.overrun h else s.updPort h f

/-- A bus write of a register: only CMD and the operand registers take one (10_state.md R42, R45). -/
def State.writeReg (s : State) (r : Reg) (v : Word) : State :=
  match r with
  | .bstat => s
  | .dropcnt => s
  | .ringcnt => s
  | .wrcnt => s
  | .rdcnt => s
  | .cfgRt => s
  | .cfgWt => s
  | .cfgPwt => s
  | .cfgSaddr => s
  | .fault => s
  | .tmrstat => s
  | .rtRem => s
  | .pwRem => s
  | .ringcap => s
  | .nports => s
  | .cmd h => if s.hasPort h then s.cmdWrite h v else s
  | .arg0 h => s.argWrite h fun q => { q with arg0 := v }
  | .arg1 h => s.argWrite h fun q => { q with arg1 := v }
  | .arg2 h => s.argWrite h fun q => { q with arg2 := v }
  | .result _ => s
  | .portstat _ => s

/-- A host's bus write that is no command: ignored where it reaches no register (10_state.md R42), and no step
while the host is held off (00_scope.md R9). -/
def State.busWrite (s : State) (off : BitVec 12) (width : BusWidth) (v : Word) : State :=
  if s.heldOff then s
  else
    match regAt off width with
    | some r => s.writeReg r v
    | none => s

/-- A host's bus read: it changes nothing of the block (20_memory.md R78); the model keeps the value it returned
(notes/assumptions/9.md). -/
def State.busRead (s : State) (off : BitVec 12) (width : BusWidth) : State :=
  if s.heldOff then s else { s with busData := s.busValue off width }

/-- A host task stores a byte in host memory (20_memory.md R72, R88; notes/assumptions/11.md). -/
def State.hostStore (s : State) (a : Word) (v : Byte) : Host.Outcome State Fault Refusal :=
  if s.heldOff then .next s else atomicStep s (s.memWrite a v)

end Sys2Proof.Machine
end

