-- ==== Sys2Proof/Machine/Interrupt.lean ====
section
/-! DEFINITION. The interrupt handler and the peripheral's events (44_interrupt_handler.md R240 to R246). -/

namespace Sys2Proof.Machine

/-- RX_ARRIVE(b) (44_interrupt_handler.md R240). -/
def execRxArrive (b : Byte) (s : State) : Host.Outcome State Fault Refusal :=
  if s.periph.pen && !s.periph.rreq then
    .next ({ s with periph := { s.periph with prxd := some b, rreq := true, pris := s.periph.pris ||| 0x01#8,
                                              rxwire := s.periph.rxwire ++ [b] } }.recordStep
      0x70#8 .peripheral none [b.setWidth 32])
  else .next s

/-- TX_REQUEST (44_interrupt_handler.md R241). -/
def execTxRequest (s : State) : Host.Outcome State Fault Refusal :=
  if s.periph.pen && !s.periph.treq then
    .next ({ s with periph := { s.periph with treq := true, pris := s.periph.pris ||| 0x01#8 } }.recordStep
      0x71#8 .peripheral none [])
  else .next s

/-- OTHER_CAUSE(k), `1 <= k <= 7` (44_interrupt_handler.md R244). -/
def execOtherCause (k : Nat) (s : State) : Host.Outcome State Fault Refusal :=
  if s.periph.pen && decide (1 ≤ k) && decide (k ≤ 7) then
    .next ({ s with periph := { s.periph with pris := s.periph.pris ||| (0x01#8 <<< k) } }.recordStep
      0x72#8 .peripheral none [BitVec.ofNat 32 k])
  else .next s

/-- Queue the received byte, or count it as dropped (44_interrupt_handler.md R246). -/
def State.receive (s : State) (b : Byte) : State :=
  let r := s.putByte .isr b
  if r.1 then r.2 else { r.2 with dropcnt := r.2.dropcnt + 1#32 }

/-- The read-side wake callback (44_interrupt_handler.md R246). -/
def State.wakeReader (s : State) : State :=
  if s.rd.wakePending then { s with rd := { s.rd with wakePending := false } }.post .rsem else s

/-- The receive half of ISR_SERVICE, taken when RREQ was set (44_interrupt_handler.md R246). -/
def State.serviceRx (s : State) : Attempt State :=
  match s.periph.prxd with
  | some b => .ok ({ s with periph := s.periph.readData }.receive b).wakeReader
  | none => .unwritten

/-- ISR_SERVICE (44_interrupt_handler.md R246): the snapshot bits are cleared, then the receive condition is
serviced, then the transmit condition. It services TREQ whichever event raised the line, a request that an earlier
placeholder branch left pending among them, as R246's pseudocode has it and against R250's derived sentence
(DESIGN CHOICE, notes/assumptions/23.md). -/
def State.isrService (s0 : State) : Attempt State :=
  let rx := s0.periph.rreq
  let tx := s0.periph.treq
  let s := { s0 with periph := { s0.periph with pris := s0.periph.pris &&& ~~~ s0.periph.pmis } }.recordStep
    0x40#8 .isr none []
  (if rx then s.serviceRx else .ok s).andThen fun t => if tx then t.produce .isr none else .ok t

/-- ISR_SERVICE, enabled when the line requests it and its host-memory read is admitted
(44_interrupt_handler.md R245, 60_exceptions.md R301). -/
def execIsrService (s : State) : Host.Outcome State Fault Refusal :=
  if s.isrEnabled then atomicStep s s.isrService else .next s

end Sys2Proof.Machine
end

