-- ==== Sys2Proof/Machine/Timers.lean ====
section
/-! DEFINITION. The timeout supervisor: TICK, RT_EXPIRE and PW_EXPIRE (41_timeout_timer.md R142, R145, R146). -/

namespace Sys2Proof.Machine

/-- TICK (41_timeout_timer.md R142): both timers and every port's write wait count one tick. -/
def execTick (s : State) : Host.Outcome State Fault Refusal :=
  if s.heldOff then .next s
  else
    .next ({ s with rtimer := s.rtimer.tick, pwtimer := s.pwtimer.tick, ports := s.ports.map Port.tick }.recordStep
      0x60#8 .tickSource none [])

/-- RT_EXPIRE, the read-timer callback (41_timeout_timer.md R145). -/
def execRtExpire (s : State) : Host.Outcome State Fault Refusal :=
  if s.rtimer.exp && !s.heldOff then
    .next ({ s with rtimer := { s.rtimer with exp := false },
                    rd := { s.rd with timedOut := true } }.post .rsem |>.recordStep 0x50#8 .timer none [])
  else .next s

/-- PW_EXPIRE, the pending-write callback (41_timeout_timer.md R146). -/
def execPwExpire (s : State) : Host.Outcome State Fault Refusal :=
  if s.pwtimer.exp && !s.heldOff then
    .next ({ s with periph := if s.periph.pen && s.periph.treq then s.periph.writeData placeholder else s.periph,
                    pwtimer := s.pwtimer.stop }.recordStep 0x51#8 .timer none [])
  else .next s

end Sys2Proof.Machine
end

