-- ==== Sys2Proof/Machine/Dispatch.lean ====
section
/-! DEFINITION. Which meaning each instruction has: one arm per row of the opcode table. -/

namespace Sys2Proof.Machine

def exec (i : Instr) (s : State) : Host.Outcome State Fault Refusal :=
  match i with
  -- commands
  | .openCmd h saddr => Sys2Proof.Machine.execOpenCmd h saddr s
  | .closeCmd h => Sys2Proof.Machine.execCloseCmd h s
  | .readCmd h => Sys2Proof.Machine.execReadCmd h s
  | .writeCmd h => Sys2Proof.Machine.execWriteCmd h s
  -- issue bodies
  | .openIssue h => Sys2Proof.Machine.execOpenIssue h s
  | .closeIssue h => Sys2Proof.Machine.execCloseIssue h s
  | .readIssue h => Sys2Proof.Machine.execReadIssue h s
  | .writeIssue h => Sys2Proof.Machine.execWriteIssue h s
  | .illegalCommand h w => Sys2Proof.Machine.execIllegalCommand h w s
  -- sequencer steps
  | .opBuild h => Sys2Proof.Machine.execOpBuild h s
  | .rdLoop h => Sys2Proof.Machine.execRdLoop h s
  | .rdWaitWake h => Sys2Proof.Machine.execRdWaitWake h s
  | .rdWoken h => Sys2Proof.Machine.execRdWoken h s
  | .rdExit h => Sys2Proof.Machine.execRdExit h s
  | .wrPendCheck h => Sys2Proof.Machine.execWrPendCheck h s
  | .wrDrain h => Sys2Proof.Machine.execWrDrain h s
  | .wrCheck h => Sys2Proof.Machine.execWrCheck h s
  | .wrWaitWake h => Sys2Proof.Machine.execWrWaitWake h s
  | .wrWaitTimeout h => Sys2Proof.Machine.execWrWaitTimeout h s
  | .wrExit h => Sys2Proof.Machine.execWrExit h s
  -- interrupt, timers, tick, peripheral
  | .isrService => Sys2Proof.Machine.execIsrService s
  | .rtExpire => Sys2Proof.Machine.execRtExpire s
  | .pwExpire => Sys2Proof.Machine.execPwExpire s
  | .tick => Sys2Proof.Machine.execTick s
  | .rxArrive b => Sys2Proof.Machine.execRxArrive b s
  | .txRequest => Sys2Proof.Machine.execTxRequest s
  | .otherCause k => Sys2Proof.Machine.execOtherCause k s
  -- sub-operations
  | .put b => Sys2Proof.Machine.execPut b s
  | .get => Sys2Proof.Machine.execGet s
  | .producerStep => Sys2Proof.Machine.execProducerStep s

end Sys2Proof.Machine
end

