-- ==== Sys2Proof/Machine/Schedule.lean ====
section
/-! DEFINITION. What one entry of the schedule does (60_exceptions.md R301; notes/assumptions/1.md): a write of a
CMD register runs the command its word decodes to (45_lifecycle.md R289), a step word runs the step it names, and
the other entries are the register bus, a host's store and the reset. -/

namespace Sys2Proof.Machine

/-- ARG1 of every port, which the decoder reads (30_encoding.md R98). -/
def State.arg1Of (s : State) (h : Nat) : Word := (s.port h).arg1

/-- Run one schedule entry. -/
def runInput (inp : Input) (s : State) : Host.Outcome State Fault Refusal :=
  match inp with
  | .busWrite off width v =>
    match cmdPortOf off width with
    | some h =>
      match decode inp s.arg1Of with
      | .ok i => exec i s
      | .error _ => exec (.illegalCommand h v) s
    | none => .next (s.busWrite off width v)
  | .busRead off width => .next (s.busRead off width)
  | .stepWord _ =>
    match decode inp s.arg1Of with
    | .ok i => exec i s
    | .error e => .refused (.undecodable e)
  | .hostStore a v => s.hostStore a v
  | .reset => .next s.applyReset

/-- Place an entry at the head of the schedule, where step takes its next one. -/
def State.pushInput (s : State) (inp : Input) : State := { s with sched := inp :: s.sched }

/-- Take the head of the schedule off. -/
def State.popInput (s : State) (rest : List Input) : State := { s with sched := rest }

end Sys2Proof.Machine
end

