-- ==== Sys2Proof/Machine/Step.lean ====
section
/-! DEFINITION. One step of the machine. -/

namespace Sys2Proof.Machine

/-- One step: the next entry of the schedule; with nothing scheduled, nothing happens (60_exceptions.md R301,
R322; notes/assumptions/1.md). -/
def step (s : State) : Host.Outcome State Fault Refusal :=
  match s.sched with
  | [] => .next s
  | inp :: rest => runInput inp (s.popInput rest)

/-- The state whose very next step runs a row's bits: the row's entry stands at the head of the schedule, and a
sub-operation, which no agent takes as a step of its own, stands called (notes/assumptions/1.md, 6.md). -/
def State.withFetchWord (s : State) (nbits w : Nat) : State :=
  (s.atCallOf (decodeTableWord nbits w)).pushInput (tableInput nbits w)

end Sys2Proof.Machine
end

