-- ==== Sys2Proof/Safety.lean ====
section
/-! DEFINITION. The terms claims are stated in: the invariant of the block (10_state.md R24, R27, R29, R32, R47;
45_lifecycle.md R270, R272, R274), which steps are enabled (60_exceptions.md R301), runs, and what the ring
holds. -/

namespace Sys2Proof.Machine

/-! ### The invariant -/

/-- The queued bytes' cells, oldest first (10_state.md R29). -/
def Ring.queued (r : Ring) : List (Option Byte) :=
  (List.range r.cnt).map fun i => r.mem[(r.rd + i) % r.cap]?.getD none

/-- The ring invariant (10_state.md R29), with R6's `RING_C >= 1`: every queued cell holds a byte. -/
structure Ring.Inv (r : Ring) : Prop where
  cap_pos : 0 < r.cap
  rd_lt : r.rd < r.cap
  cnt_le : r.cnt ≤ r.cap
  wr_eq : r.wr = (r.rd + r.cnt) % r.cap
  cells : ∀ i < r.cnt, (r.mem[(r.rd + i) % r.cap]?.getD none).isSome = true

/-- A port's invariant: `phase[h] = IDLE` exactly when `BUSY[h] = 0` (10_state.md R24). -/
def Port.Inv (p : Port) : Prop := p.phase = .idle ↔ p.busy = false

/-- A timer's invariant: an armed timer has ticks left, a stopped or expired one has none, and an expired timer is
not armed (41_timeout_timer.md R140 to R142). -/
def Timer.Inv (t : Timer) : Prop := (t.armed = true ↔ t.rem ≠ 0#32) ∧ (t.exp = true → t.armed = false)

/-- The peripheral is on, its line enabled and its mask set exactly while the instance is Open; while it is off it
holds no request and no cause; a pending byte holds a value (45_lifecycle.md R272, R274; 10_state.md R47). -/
structure State.LineInv (s : State) : Prop where
  pen_iff : s.periph.pen = true ↔ s.life.lstate = .opened
  ien_eq : s.ien = s.periph.pen
  pim_eq : s.periph.pim = if s.periph.pen then 0x01#8 else 0x00#8
  off_rreq : s.periph.pen = false → s.periph.rreq = false
  off_treq : s.periph.pen = false → s.periph.treq = false
  off_pris : s.periph.pen = false → s.periph.pris = 0#8
  rreq_value : s.periph.rreq = true → s.periph.prxd.isSome = true
  addr_eq : s.periph.psaddr = s.cfg.slaveAddr

/-- OPENED against LSTATE (10_state.md R27), and the one port that builds while the instance is Opening
(45_lifecycle.md R270 to R272). -/
structure State.LifeInv (s : State) : Prop where
  opened_iff : s.life.opened = true ↔ s.life.lstate ≠ .closed
  build_opening : ∀ h, (s.port h).phase = .opBuild → s.life.lstate = .opening
  build_unique : ∀ h j, (s.port h).phase = .opBuild → (s.port j).phase = .opBuild → h = j
  opening_build : s.life.lstate = .opening → ∃ h, (s.port h).phase = .opBuild

/-- The invariant of the block, which every step keeps. Between two steps no sub-operation stands called. -/
structure State.Inv (s : State) : Prop where
  ports_pos : 1 ≤ s.ports.length
  ports_le : s.ports.length ≤ Config.maxHost
  ports : ∀ p ∈ s.ports, p.Inv
  life : s.LifeInv
  ring : s.ring.Inv
  read_le : s.rd.count.toNat ≤ s.rd.size.toNat
  read_size : s.rd.size.toNat < 2 ^ 31
  write_le : s.wr.count.toNat ≤ s.wr.size.toNat
  write_size : s.wr.size.toNat < 2 ^ 31
  rtimer : s.rtimer.Inv
  pwtimer : s.pwtimer.Inv
  faults : s.faults.toNat < 8
  line : s.LineInv
  hmem : Memory.wf s.hmem
  call : s.call = none

/-! ### Enabled steps -/

/-- RD_LOOP makes no access that is not admitted (42_read_engine.md R172, 20_memory.md R71). -/
def State.rdLoopAdmitted (s : State) : Bool :=
  decide (s.rd.count = 0#32) || decide (s.ring.cnt = 0) || s.admitted s.rd.nextAddr

/-- The table of 60_exceptions.md R301, with R9's restriction. A sub-operation is enabled at its
call, an issue body inside its issue, and neither between two steps (notes/assumptions/6.md, 7.md). -/
def State.enabled (s : State) (i : Instr) : Bool :=
  match i with
  | .openCmd h _ => s.hostMay h
  | .closeCmd h => s.hostMay h
  | .readCmd h => s.hostMay h
  | .writeCmd h => s.hostMay h
  | .openIssue h => s.issuing h Command.isOpen
  | .closeIssue h => s.issuing h (fun k => k = .closeC)
  | .readIssue h => s.issuing h (fun k => k = .readC)
  | .writeIssue h => s.issuing h (fun k => k = .writeC)
  | .illegalCommand h w => s.hostMay h && !(decodeCommand w (s.port h).arg1).isOk
  | .opBuild h => s.atPhase h .opBuild
  | .rdLoop h => s.atPhase h .rdLoop && s.rdLoopAdmitted
  | .rdWaitWake h => s.atPhase h .rdWait && s.rsem
  | .rdWoken h => s.atPhase h .rdWoken
  | .rdExit h => s.atPhase h .rdExit
  | .wrPendCheck h => s.atPhase h .wrPendCheck && (!(s.periph.pen && s.periph.treq) || s.producerAdmitted)
  | .wrDrain h => s.atPhase h .wrDrain
  | .wrCheck h => s.atPhase h .wrCheck
  | .wrWaitWake h => s.atPhase h .wrWait && s.wsem
  | .wrWaitTimeout h => s.atPhase h .wrWait && (s.port h).waitExpired
  | .wrExit h => s.atPhase h .wrExit
  | .isrService => s.isrEnabled
  | .rtExpire => s.rtimer.exp && !s.heldOff
  | .pwExpire => s.pwtimer.exp && !s.heldOff
  | .tick => !s.heldOff
  | .rxArrive _ => s.periph.pen && !s.periph.rreq
  | .txRequest => s.periph.pen && !s.periph.treq
  | .otherCause k => s.periph.pen && decide (1 ≤ k) && decide (k ≤ 7)
  | .put b => decide (s.call = some (.put b))
  | .get => s.getCalled
  | .producerStep => s.producerCalled && s.producerAdmitted

/-! ### Runs -/

/-- The machine comes from one state to another by steps that all answer a next state. -/
inductive Reaches (s : State) : State → Prop where
  | start : Reaches s s
  | more {t u : State} : Reaches s t → step t = .next u → Reaches s u

/-- Every admitted byte of host memory was written (70_reset_and_hazards.md R353). -/
def State.MemoryWritten (s : State) : Prop :=
  ∀ a : Word, s.admitted a = true → (Memory.read s.hmem a.toNat).isSome = true

/-- A safe run: no step of it stops with a fault. -/
def State.SafeRun (s : State) : Prop := ∀ t, Reaches s t → ∀ r, step t ≠ .fault r

end Sys2Proof.Machine
end

