-- ==== Sys2Proof/Certificates/Slice0/Obligations.lean ====
section
/-! DEFINITION. The statements for the provers. A statement whose conclusion is an equation
`exec i s = .next { s with … }` says the result, the completion and the frame at once: every field that is not
named is unchanged, every byte of host memory and the launch values among them. -/

open Sys2Proof Sys2Proof.Machine

/-! ### Encoding and decoding -/

/-- Command words written out from 30_encoding.md R92, R103 at the CMD offsets of 10_state.md R42, R45, and the kind
codes of R99, decode to what they stand for. That a step word with nothing but its kind code names port 0, and byte 0x00
for RX_ARRIVE, is the layout of the model's step word (DESIGN CHOICE, notes/assumptions/8.md). -/
def Obligations.WrittenOutWordsDecode : Prop :=
  decode (.busWrite 0x100#12 .word 0x1000001D#32) (fun _ => 0#32) = .ok (.openCmd 0 0x1D#7) ∧
  decode (.busWrite 0x120#12 .word 0x20000000#32) (fun _ => 0x80000000#32) = .ok (.closeCmd 1) ∧
  decode (.busWrite 0x100#12 .word 0x30000000#32) (fun _ => 0x7FFFFFFF#32) = .ok (.readCmd 0) ∧
  decode (.busWrite 0xFE0#12 .word 0x40000000#32) (fun _ => 0#32) = .ok (.writeCmd 119) ∧
  decode (.busWrite 0x100#12 .word 0x10000080#32) (fun _ => 0#32) = .error .reservedOpen ∧
  decode (.busWrite 0x100#12 .word 0x30000000#32) (fun _ => 0x80000000#32) = .error .sizeRange ∧
  decodeTableWord 8 0x11 = some (.opBuild 0) ∧
  decodeTableWord 8 0x22 = some (.rdLoop 0) ∧
  decodeTableWord 8 0x3B = some (.wrExit 0) ∧
  decodeTableWord 8 0x40 = some .isrService ∧
  decodeTableWord 8 0x51 = some .pwExpire ∧
  decodeTableWord 8 0x60 = some .tick ∧
  decodeTableWord 8 0x70 = some (.rxArrive 0x00#8) ∧
  decodeTableWord 8 0x82 = some .producerStep ∧
  decodeTableWord 8 0x83 = none

/-- 30_encoding.md R98, with the fields read by division: the decode procedure, total on every word. -/
def Obligations.CommandDecodeFollowsTheProcedure : Prop :=
  ∀ w a1 : Word,
    (w.toNat / 2 ^ 28 = 1 ∧ w.toNat / 2 ^ 7 % 2 ^ 21 = 0 →
      decodeCommand w a1 = .ok (.openC (BitVec.ofNat 7 (w.toNat % 2 ^ 7)))) ∧
    (w.toNat / 2 ^ 28 = 2 ∧ w.toNat % 2 ^ 28 = 0 → decodeCommand w a1 = .ok .closeC) ∧
    (w.toNat / 2 ^ 28 = 3 ∧ w.toNat % 2 ^ 28 = 0 ∧ a1.toNat < 2 ^ 31 → decodeCommand w a1 = .ok .readC) ∧
    (w.toNat / 2 ^ 28 = 4 ∧ w.toNat % 2 ^ 28 = 0 ∧ a1.toNat < 2 ^ 31 → decodeCommand w a1 = .ok .writeC) ∧
    (¬(w.toNat / 2 ^ 28 = 1 ∧ w.toNat / 2 ^ 7 % 2 ^ 21 = 0) →
      ¬(w.toNat / 2 ^ 28 = 2 ∧ w.toNat % 2 ^ 28 = 0) →
      ¬((w.toNat / 2 ^ 28 = 3 ∨ w.toNat / 2 ^ 28 = 4) ∧ w.toNat % 2 ^ 28 = 0 ∧ a1.toNat < 2 ^ 31) →
      ∃ e, decodeCommand w a1 = .error e)

/-- Every well-formed instruction is what its encoding decodes to, whatever ARG1 holds where a READ or WRITE word
may stand (30_encoding.md R92, R95, R99). The step word's port and operand fields are the model's (DESIGN CHOICE,
notes/assumptions/8.md). -/
def Obligations.DecodeOfEncodeIsTheInstruction : Prop :=
  ∀ (i : Instr) (arg1 : Nat → Word), i.WellFormed → (∀ h, (arg1 h).toNat < 2 ^ 31) →
    decode (encode i) arg1 = .ok i

/-- Each encoded form has one meaning: what decodes to an instruction is that instruction's own encoding, and the
instruction is well formed (30_encoding.md R92, R97, R99). That a step word names nothing when a field its kind does
not take is set is the layout of the model's step word (DESIGN CHOICE, notes/assumptions/8.md, 18.md). -/
def Obligations.DecodedEntryIsItsEncoding : Prop :=
  ∀ (inp : Input) (arg1 : Nat → Word) (i : Instr), decode inp arg1 = .ok i → encode i = inp ∧ i.WellFormed

/-! ### The step -/

/-- A step takes the head of the schedule off and runs that entry, whatever it is: a bus read, a bus write, a host's
store, the reset or a step word; and what the entry decodes to runs as exec has it. A command word that decodes to
nothing runs the row ILLEGAL_COMMAND, a step word that decodes to nothing is refused, and with nothing scheduled
nothing happens (30_encoding.md R98, 45_lifecycle.md R289; the schedule is notes/assumptions/1.md and 18.md). -/
def Obligations.StepRunsTheDecodedInstruction : Prop :=
  ∀ (s : State) (inp : Input) (rest : List Input),
    (s.sched = [] → step s = .next s) ∧
    (s.sched = inp :: rest →
      step s = runInput inp { s with sched := rest } ∧
      (∀ i, decode inp (fun h => (s.port h).arg1) = .ok i → step s = exec i { s with sched := rest }) ∧
      (∀ off v e h, inp = .busWrite off .word v → cmdPortOf off .word = some h →
        decode inp (fun h => (s.port h).arg1) = .error e →
        step s = exec (.illegalCommand h v) { s with sched := rest }) ∧
      (∀ w e, inp = .stepWord w → decode inp (fun h => (s.port h).arg1) = .error e →
        step s = .refused (.undecodable e)))

/-! ### Lifecycle and commands -/

/-- OPEN on an idle port (45_lifecycle.md R271, R289): the issue latches the word and the busy bit; an instance
that is already open gives the null handle; otherwise the test-and-set starts the build, and BOOT_ORDER is
recorded when the board was not ready.
The history clause is the model's own record (notes/assumptions/12.md). -/
def Obligations.OpenCommandTestsAndSets : Prop :=
  ∀ (s : State) (h : Nat) (saddr : BitVec 7), s.hostMay h = true → (s.port h).busy = false →
    (s.life.opened = true →
      exec (.openCmd h saddr) s = .next { s with
        ports := s.ports.modify h fun q =>
          { q with lcmd := 0x10000000#32 ||| saddr.setWidth 32, ovr := false, result := 0#32, phase := .idle,
                   busy := false }
        history := s.history ++ [⟨0x01#8, .host, some h,
          [(s.port h).arg0, (s.port h).arg1, (s.port h).arg2, saddr.setWidth 32], none⟩] }) ∧
    (s.life.opened = false →
      exec (.openCmd h saddr) s = .next { s with
        life := { opened := true, lstate := .opening }
        faults := if s.launch.boardReady then s.faults else s.faults ||| 0x4#32
        ports := s.ports.modify h fun q =>
          { q with lcmd := 0x10000000#32 ||| saddr.setWidth 32, ovr := false, phase := .opBuild, busy := true }
        history := s.history ++ [⟨0x01#8, .host, some h,
          [(s.port h).arg0, (s.port h).arg1, (s.port h).arg2, saddr.setWidth 32], none⟩] })

/-- OP_BUILD (45_lifecycle.md R272): the whole construction, as one step, ending with the handle.
The history clause is the model's own record (notes/assumptions/12.md). -/
def Obligations.OpBuildConstructsTheInstance : Prop :=
  ∀ (s : State) (h : Nat), s.hostMay h = true → (s.port h).phase = .opBuild →
    exec (.opBuild h) s = .next { s with
      ring := { s.ring with rd := 0, wr := 0, cnt := 0 }
      ien := true, rsem := false, wsem := false
      rtimer := { armed := false, rem := 0#32, exp := false }
      pwtimer := { armed := false, rem := 0#32, exp := false }
      cfg := { readTimeout := (s.port h).arg0, writeTimeout := (s.port h).arg1, pwTimeout := (s.port h).arg2,
               slaveAddr := (s.port h).lcmd.extractLsb' 0 7 }
      rd := { buf := 0#32, size := 0#32, count := 0#32, timedOut := false, wakePending := false, active := false }
      wr := { buf := 0#32, size := 0#32, count := 0#32 }
      dropcnt := 0#32
      periph := { s.periph with psaddr := (s.port h).lcmd.extractLsb' 0 7, rreq := false, treq := false,
                                pris := 0x00#8, pim := 0x01#8, pen := true }
      life := { s.life with lstate := .opened }
      ports := s.ports.modify h fun q => { q with result := 1#32, phase := .idle, busy := false }
      history := s.history ++ [⟨0x11#8, .host, some h, [], none⟩] }

/-- CLOSE on an idle port (45_lifecycle.md R274, R275): on an Open instance the teardown, with CLOSE_IN_FLIGHT
recorded when a READ is active or some port is in a WRITE phase; otherwise nothing but the port changes. The
result is 0 either way.
The history clause is the model's own record (notes/assumptions/12.md). -/
def Obligations.CloseCommandTearsDown : Prop :=
  ∀ (s : State) (h : Nat), s.hostMay h = true → (s.port h).busy = false → (s.port h).phase = .idle →
    (s.life.lstate ≠ .opened →
      exec (.closeCmd h) s = .next { s with
        ports := s.ports.modify h fun q =>
          { q with lcmd := 0x20000000#32, ovr := false, result := 0#32, phase := .idle, busy := false }
        history := s.history ++ [⟨0x02#8, .host, some h, [], none⟩] }) ∧
    (s.life.lstate = .opened →
      exec (.closeCmd h) s = .next { s with
        faults := if s.rd.active = true ∨ ∃ p ∈ s.ports, p.phase ∈ [.wrPendCheck, .wrDrain, .wrCheck, .wrWait, .wrExit]
                  then s.faults ||| 0x1#32 else s.faults
        ien := false
        periph := { s.periph with pen := false, rreq := false, treq := false, pris := 0x00#8, pim := 0x00#8 }
        rsem := false, wsem := false
        rtimer := { armed := false, rem := 0#32, exp := false }
        pwtimer := { armed := false, rem := 0#32, exp := false }
        life := { opened := false, lstate := .closed }
        ports := s.ports.modify h fun q =>
          { q with lcmd := 0x20000000#32, ovr := false, result := 0#32, phase := .idle, busy := false }
        history := s.history ++ [⟨0x02#8, .host, some h, [], none⟩] })

/-- READ on an idle port, size below 2^31 (42_read_engine.md R171, 45_lifecycle.md R289, R292, R293): not Open
gives ERR_CLOSED, size 0 gives 0 and changes nothing else, and otherwise the transfer starts, with READ_OVERLAP
recorded when another READ is active and RTIMER armed for a finite, non-zero READ_TIMEOUT.
The history clause is the model's own record (notes/assumptions/12.md). -/
def Obligations.ReadCommandStarts : Prop :=
  ∀ (s : State) (h : Nat), s.hostMay h = true → (s.port h).busy = false → (s.port h).arg1.toNat < 2 ^ 31 →
    (s.life.lstate ≠ .opened →
      exec (.readCmd h) s = .next { s with
        ports := s.ports.modify h fun q =>
          { q with lcmd := 0x30000000#32, ovr := false, result := 0xFFFFFFFE#32, phase := .idle, busy := false }
        history := s.history ++ [⟨0x03#8, .host, some h, [(s.port h).arg0, (s.port h).arg1], none⟩] }) ∧
    (s.life.lstate = .opened → (s.port h).arg1 = 0#32 →
      exec (.readCmd h) s = .next { s with
        ports := s.ports.modify h fun q =>
          { q with lcmd := 0x30000000#32, ovr := false, result := 0#32, phase := .idle, busy := false }
        history := s.history ++ [⟨0x03#8, .host, some h, [(s.port h).arg0, (s.port h).arg1], none⟩] }) ∧
    (s.life.lstate = .opened → (s.port h).arg1 ≠ 0#32 →
      exec (.readCmd h) s = .next { s with
        faults := if s.rd.active then s.faults ||| 0x2#32 else s.faults
        rd := { buf := (s.port h).arg0, size := (s.port h).arg1, count := (s.port h).arg1, timedOut := false,
                wakePending := s.rd.wakePending, active := true }
        rsem := false
        rtimer := if s.cfg.readTimeout = 0#32 ∨ s.cfg.readTimeout = 0xFFFFFFFF#32 then s.rtimer
                  else { armed := true, rem := s.cfg.readTimeout, exp := false }
        ports := s.ports.modify h fun q =>
          { q with lcmd := 0x30000000#32, ovr := false, phase := .rdLoop, busy := true }
        history := s.history ++ [⟨0x03#8, .host, some h, [(s.port h).arg0, (s.port h).arg1], none⟩] })

/-- WRITE on an idle port, size below 2^31 (43_write_engine.md R201, 45_lifecycle.md R289, R292, R293): not Open,
then size 0, then busy, then the transfer starts.
The history clause is the model's own record (notes/assumptions/12.md). -/
def Obligations.WriteCommandStarts : Prop :=
  ∀ (s : State) (h : Nat), s.hostMay h = true → (s.port h).busy = false → (s.port h).arg1.toNat < 2 ^ 31 →
    (s.life.lstate ≠ .opened ∨ (s.port h).arg1 = 0#32 ∨ s.wr.count ≠ 0#32 →
      exec (.writeCmd h) s = .next { s with
        ports := s.ports.modify h fun q =>
          { q with
            lcmd := 0x40000000#32, ovr := false, phase := .idle, busy := false
            result := if s.life.lstate ≠ .opened then 0xFFFFFFFE#32
                      else if (s.port h).arg1 = 0#32 then 0#32 else 0xFFFFFFFF#32 }
        history := s.history ++ [⟨0x04#8, .host, some h, [(s.port h).arg0, (s.port h).arg1], none⟩] }) ∧
    (s.life.lstate = .opened → (s.port h).arg1 ≠ 0#32 → s.wr.count = 0#32 →
      exec (.writeCmd h) s = .next { s with
        wr := { buf := (s.port h).arg0, size := (s.port h).arg1, count := (s.port h).arg1 }
        ports := s.ports.modify h fun q =>
          { q with lcmd := 0x40000000#32, ovr := false, phase := .wrPendCheck, busy := true }
        history := s.history ++ [⟨0x04#8, .host, some h, [(s.port h).arg0, (s.port h).arg1], none⟩] })

/-- A word that the decode procedure reports ILLEGAL completes at its issue with ERR_ILLEGAL and changes nothing
else (45_lifecycle.md R291); a READ or WRITE word with bit 31 of ARG1 set is such a word (30_encoding.md R97).
The history clause is the model's own record (notes/assumptions/12.md). -/
def Obligations.IllegalWordCompletesAtIssue : Prop :=
  ∀ (s : State) (h : Nat) (w : Word), s.hostMay h = true → (s.port h).busy = false →
    ((∃ e, decodeCommand w (s.port h).arg1 = .error e) →
      exec (.illegalCommand h w) s = .next { s with
        ports := s.ports.modify h fun q => { q with lcmd := w, ovr := false, result := 0xFFFFFFFD#32 }
        history := s.history ++ [⟨0x0F#8, .host, some h, [w], none⟩] }) ∧
    (2 ^ 31 ≤ (s.port h).arg1.toNat →
      exec (.readCmd h) s = exec (.illegalCommand h 0x30000000#32) s ∧
      exec (.writeCmd h) s = exec (.illegalCommand h 0x40000000#32) s ∧
      ∃ e, decodeCommand 0x30000000#32 (s.port h).arg1 = .error e)

/-- A write to CMD[h] or ARGn[h] while the port is busy changes nothing but OVR[h], and a write to ARGn[h] while it
is idle stores the value (10_state.md R25). The schedule entry is the bus write itself. -/
def Obligations.BusyPortIgnoresWritesAndSetsOverrun : Prop :=
  ∀ (s : State) (h : Nat) (v : Word), s.hostMay h = true → h < 120 →
    ((s.port h).busy = true → ∀ k ∈ [0x00, 0x04, 0x08, 0x0C],
      runInput (.busWrite (BitVec.ofNat 12 (0x100 + 0x20 * h + k)) .word v) s =
        .next { s with ports := s.ports.modify h fun q => { q with ovr := true } }) ∧
    ((s.port h).busy = false →
      runInput (.busWrite (BitVec.ofNat 12 (0x100 + 0x20 * h + 0x04)) .word v) s =
        .next { s with ports := s.ports.modify h fun q => { q with arg0 := v } } ∧
      runInput (.busWrite (BitVec.ofNat 12 (0x100 + 0x20 * h + 0x08)) .word v) s =
        .next { s with ports := s.ports.modify h fun q => { q with arg1 := v } } ∧
      runInput (.busWrite (BitVec.ofNat 12 (0x100 + 0x20 * h + 0x0C)) .word v) s =
        .next { s with ports := s.ports.modify h fun q => { q with arg2 := v } } ∧
      ∀ i ∈ [Instr.openCmd h (v.extractLsb' 0 7), .closeCmd h, .readCmd h, .writeCmd h, .illegalCommand h 0#32],
        ∃ t, exec i s = .next t ∧ (t.port h).ovr = false)

/-- The issue rows are the bodies of the commands: on an idle port the command's step is the body's row, run on the
state with the word latched and the busy bit set (45_lifecycle.md R289, 30_encoding.md R99). -/
def Obligations.CommandStepIsLatchThenIssueRow : Prop :=
  ∀ (s : State) (h : Nat) (saddr : BitVec 7), s.hostMay h = true → (s.port h).busy = false →
    (s.port h).phase = .idle → (s.port h).arg1.toNat < 2 ^ 31 →
    ∃ tOpen tClose tRead tWrite,
      (exec (.openCmd h saddr) s = .next tOpen ∧
        exec (.openIssue h) { s with ports := s.ports.modify h fun q =>
          { q with lcmd := 0x10000000#32 ||| saddr.setWidth 32, ovr := false, busy := true } } = .next tOpen) ∧
      (exec (.closeCmd h) s = .next tClose ∧
        exec (.closeIssue h) { s with ports := s.ports.modify h fun q =>
          { q with lcmd := 0x20000000#32, ovr := false, busy := true } } = .next tClose) ∧
      (exec (.readCmd h) s = .next tRead ∧
        exec (.readIssue h) { s with ports := s.ports.modify h fun q =>
          { q with lcmd := 0x30000000#32, ovr := false, busy := true } } = .next tRead) ∧
      (exec (.writeCmd h) s = .next tWrite ∧
        exec (.writeIssue h) { s with ports := s.ports.modify h fun q =>
          { q with lcmd := 0x40000000#32, ovr := false, busy := true } } = .next tWrite)

/-- The issue rows complete inside an issue: OPEN's sets OPENED and starts the build or answers 0, CLOSE's answers
0 and leaves the instance not Open, READ's and WRITE's start their transfer or answer the first check that holds
(45_lifecycle.md R271, R274, R293; 42_read_engine.md R171; 43_write_engine.md R201). -/
def Obligations.IssueRowsCompleteInsideAnIssue : Prop :=
  ∀ (s : State) (h : Nat),
    (s.issuing h Command.isOpen = true → ∃ t, exec (.openIssue h) s = .next t ∧ t.life.opened = true ∧
      (t.port h).phase = (if s.life.opened then .idle else .opBuild) ∧
      (t.port h).result = (if s.life.opened then 0#32 else (s.port h).result)) ∧
    (s.issuing h (fun k => k = .closeC) = true → ∃ t, exec (.closeIssue h) s = .next t ∧
      t.life.lstate = (if s.life.lstate = .opened then .closed else s.life.lstate) ∧
      (t.port h).phase = .idle ∧ (t.port h).busy = false ∧ (t.port h).result = 0#32) ∧
    (s.issuing h (fun k => k = .readC) = true → ∃ t, exec (.readIssue h) s = .next t ∧
      (s.life.lstate = .opened ∧ (s.port h).arg1 ≠ 0#32 →
        (t.port h).phase = .rdLoop ∧ t.rd.buf = (s.port h).arg0 ∧ t.rd.size = (s.port h).arg1 ∧
        t.rd.count = (s.port h).arg1 ∧ t.rd.active = true ∧ t.rd.timedOut = false ∧ t.rsem = false) ∧
      (s.life.lstate ≠ .opened → t.rd = s.rd ∧ (t.port h).result = 0xFFFFFFFE#32) ∧
      (s.life.lstate = .opened ∧ (s.port h).arg1 = 0#32 → t.rd = s.rd ∧ (t.port h).result = 0#32)) ∧
    (s.issuing h (fun k => k = .writeC) = true → ∃ t, exec (.writeIssue h) s = .next t ∧
      (s.life.lstate = .opened ∧ (s.port h).arg1 ≠ 0#32 ∧ s.wr.count = 0#32 →
        (t.port h).phase = .wrPendCheck ∧ t.wr = ⟨(s.port h).arg0, (s.port h).arg1, (s.port h).arg1⟩) ∧
      (s.life.lstate ≠ .opened → t.wr = s.wr ∧ (t.port h).result = 0xFFFFFFFE#32) ∧
      (s.life.lstate = .opened ∧ (s.port h).arg1 = 0#32 → t.wr = s.wr ∧ (t.port h).result = 0#32) ∧
      (s.life.lstate = .opened ∧ (s.port h).arg1 ≠ 0#32 ∧ s.wr.count ≠ 0#32 →
        t.wr = s.wr ∧ (t.port h).result = 0xFFFFFFFF#32))

/-! ### The read engine -/

/-- RD_LOOP where no byte is taken (42_read_engine.md R172): nothing left to read goes to RD_EXIT; an empty ring
sets WAKE_PENDING and goes to RD_EXIT in poll mode, to RD_WAIT otherwise.
The history clause is the model's own record (notes/assumptions/12.md). -/
def Obligations.RdLoopWithoutAByte : Prop :=
  ∀ (s : State) (h : Nat), s.hostMay h = true → (s.port h).phase = .rdLoop →
    (s.rd.count = 0#32 →
      exec (.rdLoop h) s = .next { s with
        ports := s.ports.modify h fun q => { q with phase := .rdExit }
        history := s.history ++ [⟨0x22#8, .host, some h, [], none⟩] }) ∧
    (s.rd.count ≠ 0#32 → s.ring.cnt = 0 →
      exec (.rdLoop h) s = .next { s with
        rd := { s.rd with wakePending := true }
        ports := s.ports.modify h fun q =>
          { q with phase := if s.cfg.readTimeout = 0#32 then .rdExit else .rdWait }
        history := s.history ++ [⟨0x22#8, .host, some h, [], none⟩, ⟨0x81#8, .host, some h, [], some .gotEmpty⟩] })

/-- RD_LOOP with a byte queued (42_read_engine.md R172, 20_memory.md R71, R74): the oldest byte goes to
`READ_BUF + (READ_SIZE - READ_COUNT)` mod 2^32, every other byte of host memory reads as before, the ring and the
count move on by one and nothing else changes; where that address is not admitted, nothing happens at all.
A step that is not enabled is skipped (notes/assumptions/2.md).
The history clause is the model's own record (notes/assumptions/12.md). -/
def Obligations.RdLoopStoresTheOldestByte : Prop :=
  ∀ (s : State) (h : Nat) (b : Byte), s.hostMay h = true → (s.port h).phase = .rdLoop →
    s.rd.count ≠ 0#32 → s.ring.cnt ≠ 0 → s.ring.mem[s.ring.rd]?.getD none = some b →
    (s.admitted (s.rd.buf + (s.rd.size - s.rd.count)) = true →
      ∃ t, exec (.rdLoop h) s = .next t ∧
        Memory.read t.hmem (s.rd.buf + (s.rd.size - s.rd.count)).toNat = some b ∧
        (∀ a : Word, a ≠ s.rd.buf + (s.rd.size - s.rd.count) →
          Memory.read t.hmem a.toNat = Memory.read s.hmem a.toNat) ∧
        t = { s with
          hmem := t.hmem
          ring := { s.ring with rd := (s.ring.rd + 1) % s.ring.mem.length, cnt := s.ring.cnt - 1 }
          rd := { s.rd with count := s.rd.count - 1#32 }
          history := s.history ++ [⟨0x22#8, .host, some h, [], none⟩, ⟨0x81#8, .host, some h, [], some (.gotByte b)⟩] }) ∧
    (s.admitted (s.rd.buf + (s.rd.size - s.rd.count)) = false → exec (.rdLoop h) s = .next s)

/-- RD_WAIT wake (42_read_engine.md R174): only while RSEM is set; it takes RSEM.
A step that is not enabled is skipped (notes/assumptions/2.md).
The history clause is the model's own record (notes/assumptions/12.md). -/
def Obligations.RdWaitWakeTakesRsem : Prop :=
  ∀ (s : State) (h : Nat), s.hostMay h = true → (s.port h).phase = .rdWait →
    (s.rsem = true →
      exec (.rdWaitWake h) s = .next { s with
        rsem := false
        ports := s.ports.modify h fun q => { q with phase := .rdWoken }
        history := s.history ++ [⟨0x23#8, .host, some h, [], none⟩] }) ∧
    (s.rsem = false → exec (.rdWaitWake h) s = .next s)

/-- RD_WOKEN (42_read_engine.md R175): after a timeout it clears WAKE_PENDING and exits, the ring untouched;
otherwise it tries again.
The history clause is the model's own record (notes/assumptions/12.md). -/
def Obligations.RdWokenChecksTheTimeout : Prop :=
  ∀ (s : State) (h : Nat), s.hostMay h = true → (s.port h).phase = .rdWoken →
    exec (.rdWoken h) s = .next { s with
      rd := { s.rd with wakePending := if s.rd.timedOut then false else s.rd.wakePending }
      ports := s.ports.modify h fun q => { q with phase := if s.rd.timedOut then .rdExit else .rdLoop }
      history := s.history ++ [⟨0x24#8, .host, some h, [], none⟩] }

/-- RD_EXIT (42_read_engine.md R176, R177): it stops RTIMER, discards a pending expiry, ends the READ and returns
the number of bytes read, which the invariant bounds by the size.
The history clause is the model's own record (notes/assumptions/12.md). -/
def Obligations.RdExitReturnsTheCount : Prop :=
  ∀ (s : State) (h : Nat), s.hostMay h = true → (s.port h).phase = .rdExit →
    exec (.rdExit h) s = .next { s with
      rtimer := { armed := false, rem := 0#32, exp := false }
      rd := { s.rd with active := false }
      ports := s.ports.modify h fun q =>
        { q with result := s.rd.size - s.rd.count, phase := .idle, busy := false }
      history := s.history ++ [⟨0x25#8, .host, some h, [], none⟩] } ∧
    (s.Inv → (s.rd.size - s.rd.count).toNat = s.rd.size.toNat - s.rd.count.toNat ∧
      (s.rd.size - s.rd.count).toNat ≤ s.rd.size.toNat)

/-! ### The write engine -/

/-- PRODUCER_STEP at its call, which comes with a request pending (43_write_engine.md R210, 44_interrupt_handler.md
R243): with bytes left and the next byte admitted and written, that byte goes on the wire, the request and one count
go, and WSEM is posted after the last byte; with none left, PWTIMER is armed, a count of 0 as 1, and WSEM posted, and
the request stays. Where the byte's address is not admitted nothing happens (20_memory.md R71), and where it is not
called, or no request is pending, it does not run: "never on its own". The row as a thing the schedule can name, and
the call it runs at, are the model's (DESIGN CHOICE, notes/assumptions/6.md; the skip is notes/assumptions/2.md).
The history clause is the model's own record (notes/assumptions/12.md). -/
def Obligations.ProducerStepSendsOrArms : Prop :=
  ∀ (s : State) (port : Option Nat),
    (s.call = some (.producer port) → s.periph.pen = true → s.periph.treq = true →
      (∀ v, s.wr.count ≠ 0#32 → s.admitted (s.wr.buf + (s.wr.size - s.wr.count)) = true →
        Memory.read s.hmem (s.wr.buf + (s.wr.size - s.wr.count)).toNat = some v →
        exec .producerStep s = .next { s with
          periph := { s.periph with txwire := s.periph.txwire ++ [v], treq := false }
          wr := { s.wr with count := s.wr.count - 1#32 }
          wsem := s.wsem || decide (s.wr.count = 1#32)
          call := none
          history := s.history ++
            [⟨0x82#8, if port = none then .isr else .host, port, [], some (.sentByte v)⟩] }) ∧
      (s.wr.count = 0#32 →
        exec .producerStep s = .next { s with
          pwtimer := { armed := true, rem := if s.cfg.pwTimeout = 0#32 then 1#32 else s.cfg.pwTimeout, exp := false }
          wsem := true
          call := none
          history := s.history ++ [⟨0x82#8, if port = none then .isr else .host, port, [], some .noData⟩] }) ∧
      (s.wr.count ≠ 0#32 → s.admitted (s.wr.buf + (s.wr.size - s.wr.count)) = false →
        exec .producerStep s = .next s)) ∧
    ((∀ p, s.call ≠ some (.producer p)) ∨ s.periph.pen = false ∨ s.periph.treq = false →
      exec .producerStep s = .next s)

/-- WR_PEND_CHECK (43_write_engine.md R202): with no request it only moves on; with one pending and bytes left it
stops PWTIMER and sends the next byte, from task context; where that byte's address is not admitted nothing
happens. With one pending and no byte left, which another port's WR_EXIT can bring about
(70_reset_and_hazards.md R364), PRODUCER_STEP's other branch runs.
A step that is not enabled is skipped (notes/assumptions/2.md).
The history clause is the model's own record (notes/assumptions/12.md). -/
def Obligations.WrPendCheckServicesAPendingRequest : Prop :=
  ∀ (s : State) (h : Nat), s.hostMay h = true → (s.port h).phase = .wrPendCheck →
    (s.periph.pen = false ∨ s.periph.treq = false →
      exec (.wrPendCheck h) s = .next { s with
        ports := s.ports.modify h fun q => { q with phase := .wrDrain }
        history := s.history ++ [⟨0x36#8, .host, some h, [], none⟩] }) ∧
    (s.periph.pen = true → s.periph.treq = true → s.wr.count ≠ 0#32 →
      (∀ v, s.admitted (s.wr.buf + (s.wr.size - s.wr.count)) = true →
        Memory.read s.hmem (s.wr.buf + (s.wr.size - s.wr.count)).toNat = some v →
        exec (.wrPendCheck h) s = .next { s with
          pwtimer := { armed := false, rem := 0#32, exp := false }
          periph := { s.periph with txwire := s.periph.txwire ++ [v], treq := false }
          wr := { s.wr with count := s.wr.count - 1#32 }
          wsem := s.wsem || decide (s.wr.count = 1#32)
          ports := s.ports.modify h fun q => { q with phase := .wrDrain }
          history := s.history ++ [⟨0x36#8, .host, some h, [], none⟩,
            ⟨0x82#8, .host, some h, [], some (.sentByte v)⟩] }) ∧
      (s.admitted (s.wr.buf + (s.wr.size - s.wr.count)) = false → exec (.wrPendCheck h) s = .next s)) ∧
    (s.periph.pen = true → s.periph.treq = true → s.wr.count = 0#32 →
      exec (.wrPendCheck h) s = .next { s with
        pwtimer := { armed := true, rem := if s.cfg.pwTimeout = 0#32 then 1#32 else s.cfg.pwTimeout, exp := false }
        wsem := true
        ports := s.ports.modify h fun q => { q with phase := .wrDrain }
        history := s.history ++ [⟨0x36#8, .host, some h, [], none⟩, ⟨0x82#8, .host, some h, [], some .noData⟩] })

/-- WR_DRAIN (43_write_engine.md R203) takes WSEM, posted or not.
The history clause is the model's own record (notes/assumptions/12.md). -/
def Obligations.WrDrainTakesWsem : Prop :=
  ∀ (s : State) (h : Nat), s.hostMay h = true → (s.port h).phase = .wrDrain →
    exec (.wrDrain h) s = .next { s with
      wsem := false
      ports := s.ports.modify h fun q => { q with phase := .wrCheck }
      history := s.history ++ [⟨0x37#8, .host, some h, [], none⟩] }

/-- WR_CHECK (43_write_engine.md R200, R204): nothing left exits; a zero bound takes WSEM and exits; otherwise the
port waits, with no bound for WAIT_FOREVER.
The history clause is the model's own record (notes/assumptions/12.md). -/
def Obligations.WrCheckDecidesTheWait : Prop :=
  ∀ (s : State) (h : Nat), s.hostMay h = true → (s.port h).phase = .wrCheck →
    (s.wr.count = 0#32 →
      exec (.wrCheck h) s = .next { s with
        ports := s.ports.modify h fun q => { q with phase := .wrExit }
        history := s.history ++ [⟨0x38#8, .host, some h, [], none⟩] }) ∧
    (s.wr.count ≠ 0#32 → s.cfg.writeTimeout = 0#32 →
      exec (.wrCheck h) s = .next { s with
        wsem := false
        ports := s.ports.modify h fun q => { q with phase := .wrExit }
        history := s.history ++ [⟨0x38#8, .host, some h, [], none⟩] }) ∧
    (s.wr.count ≠ 0#32 → s.cfg.writeTimeout ≠ 0#32 →
      exec (.wrCheck h) s = .next { s with
        ports := s.ports.modify h fun q =>
          { q with
            wwaitInf := decide (s.cfg.writeTimeout = 0xFFFFFFFF#32)
            wwaitRem := if s.cfg.writeTimeout = 0xFFFFFFFF#32 then 0#32 else s.cfg.writeTimeout
            phase := .wrWait }
        history := s.history ++ [⟨0x38#8, .host, some h, [], none⟩] })

/-- WR_WAIT wake (43_write_engine.md R205) and WR_WAIT timeout (R206): each takes the port to WR_EXIT exactly under
its own condition, the wake taking WSEM and the timeout leaving it.
A step that is not enabled is skipped (notes/assumptions/2.md).
The history clause is the model's own record (notes/assumptions/12.md). -/
def Obligations.WrWaitEndsByWakeOrBound : Prop :=
  ∀ (s : State) (h : Nat), s.hostMay h = true → (s.port h).phase = .wrWait →
    (s.wsem = true →
      exec (.wrWaitWake h) s = .next { s with
        wsem := false
        ports := s.ports.modify h fun q => { q with phase := .wrExit }
        history := s.history ++ [⟨0x39#8, .host, some h, [], none⟩] }) ∧
    (s.wsem = false → exec (.wrWaitWake h) s = .next s) ∧
    ((s.port h).wwaitInf = false → (s.port h).wwaitRem = 0#32 →
      exec (.wrWaitTimeout h) s = .next { s with
        ports := s.ports.modify h fun q => { q with phase := .wrExit }
        history := s.history ++ [⟨0x3A#8, .host, some h, [], none⟩] }) ∧
    ((s.port h).wwaitInf = true ∨ (s.port h).wwaitRem ≠ 0#32 → exec (.wrWaitTimeout h) s = .next s)

/-- WR_EXIT (43_write_engine.md R207): the count sent so far is the result, and the busy lock, the wait bound and
the port are released in the same step.
The history clause is the model's own record (notes/assumptions/12.md). -/
def Obligations.WrExitReleasesTheLock : Prop :=
  ∀ (s : State) (h : Nat), s.hostMay h = true → (s.port h).phase = .wrExit →
    exec (.wrExit h) s = .next { s with
      wr := { s.wr with count := 0#32 }
      ports := s.ports.modify h fun q =>
        { q with wwaitRem := 0#32, wwaitInf := false, result := s.wr.size - s.wr.count, phase := .idle,
                 busy := false }
      history := s.history ++ [⟨0x3B#8, .host, some h, [], none⟩] } ∧
    (s.Inv → (s.wr.size - s.wr.count).toNat = s.wr.size.toNat - s.wr.count.toNat)

/-! ### The interrupt handler, the peripheral's events, the timers -/

/-- RX_ARRIVE, TX_REQUEST and OTHER_CAUSE (44_interrupt_handler.md R240, R241, R244): each under its condition,
and nothing at all otherwise.
A step that is not enabled is skipped (notes/assumptions/2.md).
The history clause is the model's own record (notes/assumptions/12.md). -/
def Obligations.PeripheralEventsRaiseTheirCauses : Prop :=
  ∀ (s : State) (b : Byte) (k : Nat),
    (s.periph.pen = true → s.periph.rreq = false →
      exec (.rxArrive b) s = .next { s with
        periph := { s.periph with prxd := some b, rreq := true, pris := s.periph.pris ||| 0x01#8,
                                  rxwire := s.periph.rxwire ++ [b] }
        history := s.history ++ [⟨0x70#8, .peripheral, none, [b.setWidth 32], none⟩] }) ∧
    (s.periph.pen = false ∨ s.periph.rreq = true → exec (.rxArrive b) s = .next s) ∧
    (s.periph.pen = true → s.periph.treq = false →
      exec .txRequest s = .next { s with
        periph := { s.periph with treq := true, pris := s.periph.pris ||| 0x01#8 }
        history := s.history ++ [⟨0x71#8, .peripheral, none, [], none⟩] }) ∧
    (s.periph.pen = false ∨ s.periph.treq = true → exec .txRequest s = .next s) ∧
    (s.periph.pen = true → 1 ≤ k → k ≤ 7 →
      exec (.otherCause k) s = .next { s with
        periph := { s.periph with pris := s.periph.pris ||| BitVec.ofNat 8 (2 ^ k) }
        history := s.history ++ [⟨0x72#8, .peripheral, none, [BitVec.ofNat 32 k], none⟩] }) ∧
    (s.periph.pen = false → exec (.otherCause k) s = .next s)

/-- The receive half of ISR_SERVICE alone (44_interrupt_handler.md R245, R246): the causes that were read are
cleared, the byte is queued or, the ring full, dropped and counted, and a reader that asked for it is woken
whether or not the byte was queued.
The history clause is the model's own record (notes/assumptions/12.md). -/
def Obligations.IsrServicesReceive : Prop :=
  ∀ (s : State) (b : Byte), s.ien = true → s.periph.pris &&& s.periph.pim ≠ 0#8 →
    s.periph.rreq = true → s.periph.prxd = some b → s.periph.treq = false →
    exec .isrService s = .next { s with
      periph := { s.periph with pris := s.periph.pris &&& ~~~(s.periph.pris &&& s.periph.pim), rreq := false }
      ring := if s.ring.cnt = s.ring.mem.length then s.ring
              else { mem := s.ring.mem.set s.ring.wr (some b), rd := s.ring.rd,
                     wr := (s.ring.wr + 1) % s.ring.mem.length, cnt := s.ring.cnt + 1 }
      dropcnt := if s.ring.cnt = s.ring.mem.length then s.dropcnt + 1#32 else s.dropcnt
      rd := { s.rd with wakePending := false }
      rsem := s.rsem || s.rd.wakePending
      history := s.history ++ [⟨0x40#8, .isr, none, [], none⟩, ⟨0x80#8, .isr, none, [b.setWidth 32],
        some (if s.ring.cnt = s.ring.mem.length then .putFull else .putOk)⟩] }

/-- ISR_SERVICE as a whole (44_interrupt_handler.md R245 to R247, 20_memory.md R71): it is enabled exactly when the
line requests it and its host-memory read is admitted; with no condition pending it only clears the causes it
read; it services receive and transmit in one step, receive first, the transmit half being PRODUCER_STEP whether
or not a WRITE is in flight. That it also serves a request which an earlier placeholder branch left pending follows
R246 against R250's derived sentence (DESIGN CHOICE, notes/assumptions/23.md). The half is written with the row PRODUCER_STEP at its call (notes/assumptions/6.md); PEN
is on and no call stands in every state of the invariant. A step that is not enabled is skipped
(notes/assumptions/2.md).
The history clause is the model's own record (notes/assumptions/12.md). -/
def Obligations.IsrServicesBothConditions : Prop :=
  ∀ (s : State),
    (s.ien = false ∨ s.periph.pris &&& s.periph.pim = 0#8 → exec .isrService s = .next s) ∧
    (s.ien = true → s.periph.pris &&& s.periph.pim ≠ 0#8 → s.periph.rreq = false → s.periph.treq = false →
      exec .isrService s = .next { s with
        periph := { s.periph with pris := s.periph.pris &&& ~~~(s.periph.pris &&& s.periph.pim) }
        history := s.history ++ [⟨0x40#8, .isr, none, [], none⟩] }) ∧
    (s.periph.treq = true → s.wr.count ≠ 0#32 → s.admitted (s.wr.buf + (s.wr.size - s.wr.count)) = false →
      exec .isrService s = .next s) ∧
    (s.ien = true → s.periph.pris &&& s.periph.pim ≠ 0#8 → s.periph.treq = true →
      (s.wr.count ≠ 0#32 → s.admitted (s.wr.buf + (s.wr.size - s.wr.count)) = true) →
      s.periph.pen = true → s.call = none →
      ∀ t, exec .isrService { s with periph := { s.periph with treq := false } } = .next t →
        exec .isrService s =
          exec .producerStep { t with periph := { t.periph with treq := true }, call := some (.producer none) })

/-- ISR_SERVICE completes from every state of the invariant whose host memory is written, when it is enabled
(44_interrupt_handler.md R247), and it touches neither host memory nor a port, a configuration register, a
lifecycle flag or the fault word. -/
def Obligations.IsrNeverBlocksAndLeavesTheRest : Prop :=
  ∀ (s : State), s.Inv → s.MemoryWritten → s.isrEnabled = true →
    ∃ t, exec .isrService s = .next t ∧ t.periph.rreq = false ∧
      t = { s with
        periph := { s.periph with pris := t.periph.pris, rreq := false, treq := t.periph.treq,
                                  txwire := t.periph.txwire }
        ring := t.ring, dropcnt := t.dropcnt, rd := { s.rd with wakePending := t.rd.wakePending }, rsem := t.rsem
        wsem := t.wsem, wr := { s.wr with count := t.wr.count }, pwtimer := t.pwtimer, history := t.history }

/-- RT_EXPIRE and PW_EXPIRE (41_timeout_timer.md R145, R146): each only after its timer's expiry; the read-timer
callback sets TIMED_OUT and always posts RSEM; the pending-write callback sends one placeholder into a request
that still stands, and always stops its timer.
A step that is not enabled is skipped (notes/assumptions/2.md).
The history clause is the model's own record (notes/assumptions/12.md). -/
def Obligations.TimerCallbacksRunOncePerExpiry : Prop :=
  ∀ (s : State), s.heldOff = false →
    (s.rtimer.exp = true →
      exec .rtExpire s = .next { s with
        rtimer := { s.rtimer with exp := false }
        rd := { s.rd with timedOut := true }
        rsem := true
        history := s.history ++ [⟨0x50#8, .timer, none, [], none⟩] }) ∧
    (s.rtimer.exp = false → exec .rtExpire s = .next s) ∧
    (s.pwtimer.exp = true →
      exec .pwExpire s = .next { s with
        periph := if s.periph.pen = true ∧ s.periph.treq = true
                  then { s.periph with txwire := s.periph.txwire ++ [0x00#8], treq := false } else s.periph
        pwtimer := { armed := false, rem := 0#32, exp := false }
        history := s.history ++ [⟨0x51#8, .timer, none, [], none⟩] }) ∧
    (s.pwtimer.exp = false → exec .pwExpire s = .next s)

/-- TICK (41_timeout_timer.md R142): each armed timer counts down and expires at zero, each bounded write wait
counts down to zero and stays there, and nothing else changes. -/
def Obligations.TickCountsTimersAndWaits : Prop :=
  ∀ (s : State), s.heldOff = false →
    ∃ t, exec .tick s = .next t ∧
      (s.rtimer.armed = false → t.rtimer = s.rtimer) ∧
      (s.rtimer.armed = true → s.rtimer.rem = 1#32 → t.rtimer = { armed := false, rem := 0#32, exp := true }) ∧
      (s.rtimer.armed = true → s.rtimer.rem ≠ 1#32 → t.rtimer = { s.rtimer with rem := s.rtimer.rem - 1#32 }) ∧
      (s.pwtimer.armed = false → t.pwtimer = s.pwtimer) ∧
      (s.pwtimer.armed = true → s.pwtimer.rem = 1#32 → t.pwtimer = { armed := false, rem := 0#32, exp := true }) ∧
      (s.pwtimer.armed = true → s.pwtimer.rem ≠ 1#32 → t.pwtimer = { s.pwtimer with rem := s.pwtimer.rem - 1#32 }) ∧
      (∀ h, (s.port h).phase = .wrWait ∧ (s.port h).wwaitInf = false ∧ (s.port h).wwaitRem ≠ 0#32 →
        t.port h = { s.port h with wwaitRem := (s.port h).wwaitRem - 1#32 }) ∧
      (∀ h, ¬((s.port h).phase = .wrWait ∧ (s.port h).wwaitInf = false ∧ (s.port h).wwaitRem ≠ 0#32) →
        t.port h = s.port h) ∧
      t = { s with rtimer := t.rtimer, pwtimer := t.pwtimer, ports := t.ports, history := t.history } ∧
      t.ports.length = s.ports.length

/-- One-shot expiry (41_timeout_timer.md R143): a timer armed with `n`, a count of 0 as 1, and neither re-armed nor
stopped has EXP set after exactly max(n, 1) ticks and not before. -/
def Obligations.ArmedTimerExpiresAfterItsTicks : Prop :=
  ∀ (t : Timer) (n : Word) (k : Nat),
    (k < max n.toNat 1 → ((Timer.tick^[k]) (t.arm n)).exp = false ∧ ((Timer.tick^[k]) (t.arm n)).armed = true ∧
      ((Timer.tick^[k]) (t.arm n)).rem.toNat = max n.toNat 1 - k) ∧
    (max n.toNat 1 ≤ k → (Timer.tick^[k]) (t.arm n) = { armed := false, rem := 0#32, exp := true })

/-! ### The ring -/

/-- PUT and GET at their calls (40_ring_buffer.md R120, R121): a full ring drops the new byte, an empty ring answers
nothing, and otherwise one cell, its index and the count move; nothing else of the machine changes. Where they are not
called they do not run (R122). The rows as things the schedule can name, and the call each runs at, are the model's
(DESIGN CHOICE, notes/assumptions/6.md; the skip is notes/assumptions/2.md).
The history clause is the model's own record (notes/assumptions/12.md). -/
def Obligations.PutAndGetMoveOneByte : Prop :=
  ∀ (s : State) (b : Byte) (h : Nat),
    (s.call = some (.put b) →
      (s.ring.cnt = s.ring.mem.length →
        exec (.put b) s = .next { s with
          call := none
          history := s.history ++ [⟨0x80#8, .isr, none, [b.setWidth 32], some .putFull⟩] }) ∧
      (s.ring.cnt ≠ s.ring.mem.length →
        exec (.put b) s = .next { s with
          ring := { mem := s.ring.mem.set s.ring.wr (some b), rd := s.ring.rd,
                    wr := (s.ring.wr + 1) % s.ring.mem.length, cnt := s.ring.cnt + 1 }
          call := none
          history := s.history ++ [⟨0x80#8, .isr, none, [b.setWidth 32], some .putOk⟩] })) ∧
    (s.call ≠ some (.put b) → exec (.put b) s = .next s) ∧
    (s.call = some (.get h) →
      (s.ring.cnt = 0 →
        exec .get s = .next { s with
          call := none
          history := s.history ++ [⟨0x81#8, .host, some h, [], some .gotEmpty⟩] }) ∧
      (s.ring.cnt ≠ 0 → s.ring.mem[s.ring.rd]?.getD none = some b →
        exec .get s = .next { s with
          ring := { s.ring with rd := (s.ring.rd + 1) % s.ring.mem.length, cnt := s.ring.cnt - 1 }
          call := none
          history := s.history ++ [⟨0x81#8, .host, some h, [], some (.gotByte b)⟩] })) ∧
    ((∀ p, s.call ≠ some (.get p)) → exec .get s = .next s)

/-- The ring is a bounded first-in first-out queue (10_state.md R29; 20_memory.md R83; 40_ring_buffer.md R120,
R121): a PUT that is not Full appends its byte to the queued bytes, Full means RING_C bytes are queued, and a GET
answers and removes the oldest. -/
def Obligations.RingIsABoundedFifo : Prop :=
  ∀ (r : Ring) (b : Byte), r.Inv →
    (r.put b = none ↔ r.queued.length = r.cap) ∧
    (∀ r', r.put b = some r' → r'.Inv ∧ r'.cap = r.cap ∧ r'.queued = r.queued ++ [some b]) ∧
    (r.get = .empty ↔ r.queued = []) ∧
    (∀ c r', r.get = .ok c r' → r'.Inv ∧ r'.cap = r.cap ∧ r.queued = some c :: r'.queued) ∧
    r.get ≠ .noValue

/-- The model's one fault (10_state.md R47, 20_memory.md R72, 60_exceptions.md R306): a step stops exactly when its
condition holds and it reads a ring cell without a value (RD_LOOP), PRXD without a value (ISR_SERVICE), or an admitted
host byte that was never written (ISR_SERVICE, WR_PEND_CHECK). RD_LOOP stops at such a cell whether or not the address
it would store to is admitted (DESIGN CHOICE, notes/assumptions/21.md), and the rows GET and PRODUCER_STEP stop so at
their calls (DESIGN CHOICE, notes/assumptions/6.md). -/
def Obligations.FaultsAreReadsOfUnwrittenCells : Prop :=
  ∀ (i : Instr) (s : State) (r : Fault),
    exec i s = .fault r ↔ r = .modelUnwritten ∧
      (((∃ h, i = .rdLoop h ∧ s.hostMay h = true ∧ (s.port h).phase = .rdLoop ∧ s.rd.count ≠ 0#32) ∨
          (i = .get ∧ ∃ h, s.call = some (.get h))) ∧
        s.ring.cnt ≠ 0 ∧ s.ring.mem[s.ring.rd]?.getD none = none ∨
      i = .isrService ∧ s.isrEnabled = true ∧ s.periph.rreq = true ∧ s.periph.prxd = none ∨
      ((i = .isrService ∧ s.isrEnabled = true ∧ s.periph.treq = true) ∨
          (∃ h, i = .wrPendCheck h ∧ s.hostMay h = true ∧ (s.port h).phase = .wrPendCheck ∧ s.periph.pen = true ∧
            s.periph.treq = true) ∨
          (i = .producerStep ∧ (∃ p, s.call = some (.producer p)) ∧ s.periph.pen = true ∧ s.periph.treq = true)) ∧
        s.wr.count ≠ 0#32 ∧ s.admitted (s.wr.buf + (s.wr.size - s.wr.count)) = true ∧
        Memory.read s.hmem (s.wr.buf + (s.wr.size - s.wr.count)).toNat = none)

/-! ### Registers -/

/-- BSTAT (10_state.md R44), bit by bit, and read-only. -/
def Obligations.BstatShowsTheFlags : Prop :=
  ∀ (s : State),
    s.bstat.getLsbD 0 = s.life.opened ∧
    s.bstat.extractLsb' 1 2 = (match s.life.lstate with | .closed => 0#2 | .opening => 1#2 | .opened => 2#2) ∧
    s.bstat.getLsbD 3 = s.ien ∧
    s.bstat.getLsbD 4 = s.rd.timedOut ∧
    s.bstat.getLsbD 5 = s.rd.wakePending ∧
    s.bstat.getLsbD 6 = s.rsem ∧
    s.bstat.getLsbD 7 = s.wsem ∧
    s.bstat.getLsbD 8 = s.rd.active ∧
    s.bstat.getLsbD 9 = s.periph.pen ∧
    s.bstat.getLsbD 10 = s.periph.rreq ∧
    s.bstat.getLsbD 11 = s.periph.treq ∧
    s.bstat.extractLsb' 12 20 = 0#20 ∧
    s.busValue 0x000#12 .word = s.bstat ∧
    ∀ w v, runInput (.busWrite 0x000#12 w v) s = .next s

/-- The register map as a bus read sees it (10_state.md R42 to R45): the read leaves the block as it was and
returns the register's value, and 0 where the access is narrow or misaligned or names no register: the offsets past
the last global register, the last two words of each port's block, and every offset of a port at or past N_HOST. The
returned value is kept in `busData` (DESIGN CHOICE, notes/assumptions/9.md), and RINGCNT, RINGCAP and NPORTS show the
low 32 bits of their numbers (DEDUCED, notes/assumptions/15.md). -/
def Obligations.BusReadsFollowTheRegisterMap : Prop :=
  ∀ (s : State) (h : Nat), s.heldOff = false →
    (∀ off w, runInput (.busRead off w) s = .next { s with busData := s.busValue off w }) ∧
    s.busValue 0x000#12 .word = s.bstat ∧
    s.busValue 0x004#12 .word = s.dropcnt ∧
    s.busValue 0x008#12 .word = BitVec.ofNat 32 s.ring.cnt ∧
    s.busValue 0x00C#12 .word = s.wr.count ∧
    s.busValue 0x010#12 .word = s.rd.count ∧
    s.busValue 0x014#12 .word = s.cfg.readTimeout ∧
    s.busValue 0x018#12 .word = s.cfg.writeTimeout ∧
    s.busValue 0x01C#12 .word = s.cfg.pwTimeout ∧
    s.busValue 0x020#12 .word = s.cfg.slaveAddr.setWidth 32 ∧
    s.busValue 0x024#12 .word = s.faults &&& 0x7#32 ∧
    (∀ n, (s.busValue 0x028#12 .word).getLsbD n =
      (if n = 0 then s.rtimer.armed else if n = 1 then s.rtimer.exp
       else if n = 2 then s.pwtimer.armed else if n = 3 then s.pwtimer.exp else false)) ∧
    s.busValue 0x02C#12 .word = s.rtimer.rem ∧
    s.busValue 0x030#12 .word = s.pwtimer.rem ∧
    s.busValue 0x034#12 .word = BitVec.ofNat 32 s.ring.mem.length ∧
    s.busValue 0x038#12 .word = BitVec.ofNat 32 s.ports.length ∧
    (h < s.ports.length → h < 120 →
      s.busValue (BitVec.ofNat 12 (0x100 + 0x20 * h)) .word = 0#32 ∧
      s.busValue (BitVec.ofNat 12 (0x104 + 0x20 * h)) .word = (s.port h).arg0 ∧
      s.busValue (BitVec.ofNat 12 (0x108 + 0x20 * h)) .word = (s.port h).arg1 ∧
      s.busValue (BitVec.ofNat 12 (0x10C + 0x20 * h)) .word = (s.port h).arg2 ∧
      s.busValue (BitVec.ofNat 12 (0x110 + 0x20 * h)) .word = (s.port h).result ∧
      (s.busValue (BitVec.ofNat 12 (0x114 + 0x20 * h)) .word).getLsbD 0 = (s.port h).busy ∧
      (s.busValue (BitVec.ofNat 12 (0x114 + 0x20 * h)) .word).getLsbD 1 = (s.port h).ovr ∧
      (s.busValue (BitVec.ofNat 12 (0x114 + 0x20 * h)) .word).extractLsb' 2 2 = 0#2 ∧
      (s.busValue (BitVec.ofNat 12 (0x114 + 0x20 * h)) .word).extractLsb' 4 4 = (s.port h).phase.code ∧
      (s.busValue (BitVec.ofNat 12 (0x114 + 0x20 * h)) .word).extractLsb' 8 24 = 0#24) ∧
    (∀ off w, w ≠ .word ∨ off.toNat % 4 ≠ 0 → s.busValue off w = 0#32) ∧
    (∀ off, 0x03C ≤ off.toNat → off.toNat < 0x100 → s.busValue off .word = 0#32) ∧
    (∀ off, 0x100 ≤ off.toNat → 0x18 ≤ (off.toNat - 0x100) % 0x20 → s.busValue off .word = 0#32) ∧
    (∀ off, 0x100 ≤ off.toNat → s.ports.length ≤ (off.toNat - 0x100) / 0x20 → s.busValue off .word = 0#32)

/-- A bus write reaches only CMD and the operand registers of the ports there are: at any other offset, at any offset
of a port at or past N_HOST (notes/assumptions/13.md), misaligned or narrower than 32 bits, it has no effect
(10_state.md R42, R43, R45). -/
def Obligations.OtherBusWritesHaveNoEffect : Prop :=
  ∀ (s : State) (off : BitVec 12) (w : BusWidth) (v : Word),
    w ≠ .word ∨ off.toNat < 0x100 ∨ 0x10 ≤ (off.toNat - 0x100) % 0x20 ∨ off.toNat % 4 ≠ 0 ∨
      s.ports.length ≤ (off.toNat - 0x100) / 0x20 →
    runInput (.busWrite off w v) s = .next s

/-! ### Reset -/

/-- The reset state holds the values of the reset table (10_state.md R46). Its first three clauses are no part of the
table: that State.reset has the reference parameters of 00_scope.md R6, R7 and R9 is the model's choice (DESIGN CHOICE,
notes/assumptions/3.md). -/
def Obligations.ResetLeavesTheTablesValues : Prop :=
  State.reset.ports.length = 1 ∧ State.reset.ring.mem.length = 32 ∧ State.reset.launch.preemptStrict = false ∧
  (∀ p ∈ State.reset.ports, p.arg0 = 0#32 ∧ p.arg1 = 0#32 ∧ p.arg2 = 0#32 ∧ p.result = 0#32 ∧ p.lcmd = 0#32 ∧
    p.busy = false ∧ p.ovr = false ∧ p.phase = .idle ∧ p.wwaitRem = 0#32 ∧ p.wwaitInf = false) ∧
  State.reset.life = { opened := false, lstate := .closed } ∧
  State.reset.cfg = { readTimeout := 0#32, writeTimeout := 0#32, pwTimeout := 0#32, slaveAddr := 0#7 } ∧
  State.reset.ring.rd = 0 ∧ State.reset.ring.wr = 0 ∧ State.reset.ring.cnt = 0 ∧
  (∀ c ∈ State.reset.ring.mem, c = none) ∧
  State.reset.rd = ⟨0#32, 0#32, 0#32, false, false, false⟩ ∧
  State.reset.wr = ⟨0#32, 0#32, 0#32⟩ ∧
  State.reset.rsem = false ∧ State.reset.wsem = false ∧
  State.reset.rtimer = ⟨false, 0#32, false⟩ ∧ State.reset.pwtimer = ⟨false, 0#32, false⟩ ∧
  State.reset.ien = false ∧ State.reset.dropcnt = 0#32 ∧ State.reset.faults = 0#32 ∧
  State.reset.periph = ⟨false, 0#7, false, none, false, 0x00#8, 0x00#8, [], []⟩

/-- The reset event (70_reset_and_hazards.md R340 to R342): from every state, at any point, the block's state is
the reset state's, for this state's own RING_C and N_HOST; the launch values and host memory stay. That the model's
own fields `sched` and `busData` stay too is read from the spec by inference (DEDUCED, notes/assumptions/17.md).
The history clause is the model's own record (notes/assumptions/12.md). -/
def Obligations.ResetEventRestoresTheBlock : Prop :=
  ∀ (s : State),
    runInput .reset s = .next { State.reset with
      launch := s.launch
      ports := List.replicate s.ports.length Port.reset
      ring := { mem := List.replicate s.ring.mem.length none, rd := 0, wr := 0, cnt := 0 }
      hmem := s.hmem, sched := s.sched, busData := s.busData, history := s.history }

/-! ### Invariants and whole-machine rules -/

/-- The reset state meets the invariant. -/
def Obligations.ResetMeetsTheInvariant : Prop := State.reset.Inv

/-- Every step keeps the invariant, from every state that meets it: the ring stays a queue of written bytes
(10_state.md R29), a port is IDLE exactly when it is not busy (R24), OPENED and LSTATE agree (R27), counts stay
within sizes (R32), timers and the interrupt line stay consistent, FAULT's reserved bits stay 0 (R40), host memory
keeps its form and no sub-operation stands called between two steps (40_ring_buffer.md R122, 43_write_engine.md R210;
the field `call` is the model's, notes/assumptions/6.md). -/
def Obligations.StepKeepsTheInvariant : Prop :=
  ∀ s t : State, s.Inv → step s = .next t → t.Inv

/-- No run from a state of the invariant whose admitted host memory is written stops with a fault: ring cells and
PRXD are never read without a value (10_state.md R47; 70_reset_and_hazards.md R353). -/
def Obligations.WrittenMemoryRunsWithoutFaults : Prop :=
  ∀ s : State, s.Inv → s.MemoryWritten → s.SafeRun

/-- LSTATE moves only along Closed, Opening, Open, Closed; no other transition exists, the external reset apart
(45_lifecycle.md R270). Opening is left only by the build. -/
def Obligations.LifecycleMovesOnlyForward : Prop :=
  ∀ (i : Instr) (s t : State), s.Inv → exec i s = .next t → t.life.lstate ≠ s.life.lstate →
    (s.life.lstate = .closed ∧ t.life.lstate = .opening ∧ ∃ h, i = .openIssue h ∨ ∃ a, i = .openCmd h a) ∨
    (s.life.lstate = .opening ∧ t.life.lstate = .opened ∧ ∃ h, i = .opBuild h) ∨
    (s.life.lstate = .opened ∧ t.life.lstate = .closed ∧ ∃ h, i = .closeIssue h ∨ i = .closeCmd h)

/-- No step, the reset event included, changes a launch value: RING_C, N_HOST, PREEMPT_STRICT, BOARD_READY or
HMEM_ADMIT (70_reset_and_hazards.md R341; 20_memory.md R81). -/
def Obligations.LaunchValuesNeverChange : Prop :=
  ∀ s t : State, step s = .next t →
    t.launch = s.launch ∧ t.ports.length = s.ports.length ∧ t.ring.mem.length = s.ring.mem.length

/-- The enabled steps are exactly those of the table (60_exceptions.md R301). A step that is not enabled does not
happen (the skip is notes/assumptions/2.md), given the ring invariant, which rules out a queued cell without a value
(notes/assumptions/21.md). Every enabled step completes and records itself (R310; notes/assumptions/12.md), or is a
command written to a busy port, which sets OVR alone (10_state.md R25); the model's one fault apart. In a state of the
invariant no issue body and no sub-operation is enabled as a step of its own (notes/assumptions/6.md, 7.md). An
ILLEGAL_COMMAND whose word is legal on its port counts as not enabled (notes/assumptions/19.md). -/
def Obligations.OnlyEnabledStepsHappen : Prop :=
  ∀ (i : Instr) (s : State),
    (s.ring.Inv → s.enabled i = false → exec i s = .next s) ∧
    (s.enabled i = true → exec i s = .fault .modelUnwritten ∨
      ∃ t, exec i s = .next t ∧ ((∃ r rs, t.history = s.history ++ r :: rs) ∨
        ∃ h, (s.port h).busy = true ∧ t = s.overrun h)) ∧
    (s.Inv → s.enabled i = true →
      (∀ h, i ≠ .openIssue h ∧ i ≠ .closeIssue h ∧ i ≠ .readIssue h ∧ i ≠ .writeIssue h) ∧
      (∀ b, i ≠ .put b) ∧ i ≠ .get ∧ i ≠ .producerStep)

/-- PREEMPT_STRICT (00_scope.md R9): while ISR_SERVICE is enabled, no host step, timer callback or TICK is taken.
A row that runs inside a step already begun, an issue body or GET, is no step of its own and is not named here
(notes/assumptions/6.md, 7.md). That bus reads, operand writes and host stores are held off as host steps is read from
the spec by inference (DEDUCED, notes/assumptions/10.md), and the skip is notes/assumptions/2.md. -/
def Obligations.StrictPreemptionHoldsOffTheOthers : Prop :=
  ∀ (s : State) (h : Nat) (a : BitVec 7) (w v : Word) (b : Byte) (off : BitVec 12) (bw : BusWidth),
    s.launch.preemptStrict = true → s.isrEnabled = true →
    (∀ i ∈ [Instr.openCmd h a, .closeCmd h, .readCmd h, .writeCmd h, .illegalCommand h w, .opBuild h, .rdLoop h,
            .rdWaitWake h, .rdWoken h, .rdExit h, .wrPendCheck h, .wrDrain h, .wrCheck h, .wrWaitWake h,
            .wrWaitTimeout h, .wrExit h, .rtExpire, .pwExpire, .tick], exec i s = .next s) ∧
    runInput (.busRead off bw) s = .next s ∧ runInput (.busWrite off bw v) s = .next s ∧
    runInput (.hostStore w b) s = .next s

/-- Only ISR_SERVICE puts and only RD_LOOP gets (40_ring_buffer.md R122; 10_state.md R33): a step that changes a
ring cell or the write index is ISR_SERVICE, or the row PUT at ISR_SERVICE's call; one that changes the read index is
RD_LOOP, or the row GET at RD_LOOP's call; OP_BUILD apart, which empties the ring. In a state of the invariant, so
between any two steps of a run, the rows PUT, GET and PRODUCER_STEP do nothing: none runs on its own (43_write_engine.md
R210). The rows' calls are the model's (DESIGN CHOICE, notes/assumptions/6.md). -/
def Obligations.RingHasOneProducerAndOneConsumer : Prop :=
  ∀ (i : Instr) (s t : State), exec i s = .next t →
    (t.ring.mem ≠ s.ring.mem → i = .isrService ∨ ∃ b, i = .put b ∧ s.call = some (.put b)) ∧
    (t.ring.wr ≠ s.ring.wr →
      i = .isrService ∨ (∃ b, i = .put b ∧ s.call = some (.put b)) ∨ ∃ h, i = .opBuild h) ∧
    (t.ring.rd ≠ s.ring.rd →
      (∃ h, i = .rdLoop h) ∨ (i = .get ∧ ∃ h, s.call = some (.get h)) ∨ ∃ h, i = .opBuild h) ∧
    (s.Inv → ((∃ b, i = .put b) ∨ i = .get ∨ i = .producerStep) → t = s)

/-- Who writes the transfer fields (10_state.md R33, with OP_BUILD, which resets them): TIMED_OUT is set by the
read-timer callback alone, WAKE_PENDING by RD_LOOP alone, RSEM is posted by ISR_SERVICE and the read-timer callback
alone, and WSEM by PRODUCER_STEP alone, which ISR_SERVICE and WR_PEND_CHECK run (42_read_engine.md R174;
43_write_engine.md R205) and whose own row runs at their calls (notes/assumptions/6.md). -/
def Obligations.SignalsHaveTheirPosters : Prop :=
  ∀ (i : Instr) (s t : State), exec i s = .next t →
    (s.rd.timedOut = false → t.rd.timedOut = true → i = .rtExpire) ∧
    (s.rd.wakePending = false → t.rd.wakePending = true → ∃ h, i = .rdLoop h) ∧
    (s.rsem = false → t.rsem = true → i = .isrService ∨ i = .rtExpire) ∧
    (s.wsem = false → t.wsem = true → i = .isrService ∨ i = .producerStep ∨ ∃ h, i = .wrPendCheck h) ∧
    (t.wr.count ≠ s.wr.count → i = .isrService ∨ i = .producerStep ∨
      ∃ h, i = .wrPendCheck h ∨ i = .writeCmd h ∨ i = .writeIssue h ∨ i = .wrExit h ∨ i = .opBuild h)

/-- Timer ownership (41_timeout_timer.md R148): RTIMER is armed by READ's issue and stopped by RD_EXIT, OPEN's
build and CLOSE; PWTIMER is armed by PRODUCER_STEP, here inside ISR_SERVICE or, with no byte left, WR_PEND_CHECK,
and stopped by WR_PEND_CHECK, PW_EXPIRE, OPEN's build and CLOSE; TICK and the callback count them. PRODUCER_STEP's own
row runs at its callers' calls (notes/assumptions/6.md). -/
def Obligations.TimersHaveTheirOwners : Prop :=
  ∀ (i : Instr) (s t : State), exec i s = .next t →
    (t.rtimer ≠ s.rtimer →
      i = .tick ∨ i = .rtExpire ∨
      (∃ h, (i = .readCmd h ∨ i = .readIssue h) ∧ t.rtimer = s.rtimer.arm s.cfg.readTimeout) ∨
      ∃ h, (i = .rdExit h ∨ i = .opBuild h ∨ i = .closeCmd h ∨ i = .closeIssue h) ∧ t.rtimer = s.rtimer.stop) ∧
    (t.pwtimer ≠ s.pwtimer →
      i = .tick ∨
      ((i = .isrService ∨ i = .producerStep ∨ ∃ h, i = .wrPendCheck h) ∧ t.pwtimer = s.pwtimer.arm s.cfg.pwTimeout) ∨
      ((i = .pwExpire ∨ ∃ h, i = .wrPendCheck h ∨ i = .opBuild h ∨ i = .closeCmd h ∨ i = .closeIssue h) ∧
        t.pwtimer = s.pwtimer.stop))

/-- Host memory (20_memory.md R74): of the table's rows none but RD_LOOP changes a byte, and RD_LOOP changes none but
the one at `READ_BUF + (READ_SIZE - READ_COUNT)`. A host task's own store is no row; HostStoreWritesOneByte says what it
does. -/
def Obligations.OnlyRdLoopStoresToHostMemory : Prop :=
  ∀ (i : Instr) (s t : State), exec i s = .next t →
    ((∀ h, i ≠ .rdLoop h) → t.hmem = s.hmem) ∧
    (∀ a : Word, a ≠ s.rd.buf + (s.rd.size - s.rd.count) →
      Memory.read t.hmem a.toNat = Memory.read s.hmem a.toNat)

/-- The configuration registers are written only by OPEN's build step (10_state.md R28), and a fault bit, once
set, is cleared by no step but the reset (R40). -/
def Obligations.ConfigurationAndFaultBitsAreHeld : Prop :=
  ∀ (i : Instr) (s t : State), exec i s = .next t →
    (t.cfg ≠ s.cfg → ∃ h, i = .opBuild h ∧
      t.cfg = ⟨(s.port h).arg0, (s.port h).arg1, (s.port h).arg2, (s.port h).lcmd.extractLsb' 0 7⟩) ∧
    (∀ n, s.faults.getLsbD n = true → t.faults.getLsbD n = true) ∧
    (t.faults ≠ s.faults → ∃ h, i = .closeCmd h ∨ i = .closeIssue h ∨ i = .readCmd h ∨ i = .readIssue h ∨
      i = .openIssue h ∨ ∃ a, i = .openCmd h a)

/-- The wires only grow, by at most one byte a step (10_state.md R41; 20_memory.md R84): TXWIRE by ISR_SERVICE,
WR_PEND_CHECK, PW_EXPIRE or PRODUCER_STEP, and only into a pending request, RXWIRE by RX_ARRIVE. And no byte of a WRITE
is counted as sent without going on the wire: where a request is pending only on an enabled peripheral, as the
invariant has it, a step of ISR_SERVICE, WR_PEND_CHECK or PRODUCER_STEP that changes WRITE_COUNT lowers it by one and
appends the byte at `WRITE_BUF + (WRITE_SIZE - WRITE_COUNT)`. -/
def Obligations.WiresGrowByOneByte : Prop :=
  ∀ (i : Instr) (s t : State), exec i s = .next t →
    (t.periph.txwire = s.periph.txwire ∨
      (s.periph.treq = true ∧ t.periph.treq = false ∧
        (i = .isrService ∨ i = .pwExpire ∨ i = .producerStep ∨ ∃ h, i = .wrPendCheck h) ∧
        ∃ v, t.periph.txwire = s.periph.txwire ++ [v])) ∧
    (t.periph.rxwire = s.periph.rxwire ∨ ∃ b, i = .rxArrive b ∧ t.periph.rxwire = s.periph.rxwire ++ [b]) ∧
    ((s.periph.treq = true → s.periph.pen = true) → t.wr.count ≠ s.wr.count →
      (i = .isrService ∨ i = .producerStep ∨ ∃ h, i = .wrPendCheck h) →
      t.wr = { s.wr with count := s.wr.count - 1#32 } ∧
      ∃ v, Memory.read s.hmem (s.wr.buf + (s.wr.size - s.wr.count)).toNat = some v ∧
        t.periph.txwire = s.periph.txwire ++ [v])

/-- A host step changes no other port's registers (60_exceptions.md R314, R319), and no step of the interrupt or
timer context, of the tick or of the peripheral writes a result, a busy bit or a phase (R303). -/
def Obligations.PortsBelongToTheirHosts : Prop :=
  ∀ (s t : State) (h j : Nat) (a : BitVec 7) (w : Word) (b : Byte) (k : Nat),
    (j ≠ h → ∀ i ∈ [Instr.openCmd h a, .closeCmd h, .readCmd h, .writeCmd h, .openIssue h, .closeIssue h, .readIssue h,
        .writeIssue h, .illegalCommand h w, .opBuild h, .rdLoop h, .rdWaitWake h, .rdWoken h, .rdExit h,
        .wrPendCheck h, .wrDrain h, .wrCheck h, .wrWaitWake h, .wrWaitTimeout h, .wrExit h],
      exec i s = .next t → t.port j = s.port j) ∧
    (∀ i ∈ [Instr.isrService, .rtExpire, .pwExpire, .tick, .rxArrive b, .txRequest, .otherCause k, .put b, .get,
        .producerStep],
      exec i s = .next t →
        (t.port j).result = (s.port j).result ∧ (t.port j).busy = (s.port j).busy ∧
        (t.port j).phase = (s.port j).phase ∧ (t.port j).ovr = (s.port j).ovr)

/-- A port blocks only in RD_WAIT and WR_WAIT (60_exceptions.md R314): in every other phase of a command, with the
host not held off, a step of the port is there to take and changes the block's state, not the history alone
(notes/assumptions/12.md). In RD_LOOP the buffer's next byte must be admitted, and in WR_PEND_CHECK the buffer's next
byte admitted and written (70_reset_and_hazards.md R353); the other phases reach no memory. -/
def Obligations.PortsBlockOnlyWhileWaiting : Prop :=
  ∀ (s : State) (h : Nat), s.Inv → s.hostMay h = true →
    ((s.port h).phase = .rdLoop → s.admitted (s.rd.buf + (s.rd.size - s.rd.count)) = true) →
    ((s.port h).phase = .wrPendCheck → s.admitted (s.wr.buf + (s.wr.size - s.wr.count)) = true ∧
      (Memory.read s.hmem (s.wr.buf + (s.wr.size - s.wr.count)).toNat).isSome = true) →
    (s.port h).phase ≠ .idle → (s.port h).phase ≠ .rdWait → (s.port h).phase ≠ .wrWait →
    ∃ i ∈ [Instr.opBuild h, .rdLoop h, .rdWoken h, .rdExit h, .wrPendCheck h, .wrDrain h, .wrCheck h, .wrExit h],
      ∃ t, exec i s = .next t ∧ t ≠ { s with history := t.history }

/-- No lost wake (42_read_engine.md R179): a READ that found the ring empty and then has a byte delivered by
ISR_SERVICE before it takes RD_WAIT finds RSEM set, so its wake step runs. -/
def Obligations.NoLostWake : Prop :=
  ∀ (s s1 s2 s3 : State) (h : Nat) (b : Byte), s.Inv → s.hostMay h = true → (s.port h).phase = .rdLoop →
    s.rd.count ≠ 0#32 → s.ring.cnt = 0 → s.cfg.readTimeout ≠ 0#32 → s.periph.pen = true → s.periph.rreq = false →
    exec (.rdLoop h) s = .next s1 → exec (.rxArrive b) s1 = .next s2 → s2.isrEnabled = true →
    exec .isrService s2 = .next s3 →
    s3.rsem = true ∧ s3.rd.wakePending = false ∧ s3.ring.queued = [some b] ∧
      (s3.heldOff = false → ∃ t, exec (.rdWaitWake h) s3 = .next t ∧ (t.port h).phase = .rdWoken)

/-- RT_EXPIRE and PW_EXPIRE due together may run in either order: the block's state is the same
(60_exceptions.md R308); only the history tells them apart. -/
def Obligations.TimerCallbacksCommute : Prop :=
  ∀ s : State, s.launch.preemptStrict = false → s.rtimer.exp = true → s.pwtimer.exp = true →
    ∃ t1 t2 u1 u2, exec .rtExpire s = .next t1 ∧ exec .pwExpire t1 = .next t2 ∧
      exec .pwExpire s = .next u1 ∧ exec .rtExpire u1 = .next u2 ∧
      t2 = { u2 with history := t2.history } ∧ t2.rtimer.exp = false ∧ t2.pwtimer.exp = false

/-- When a WRITE's wake and its timeout are both enabled, its result does not depend on which is taken
(43_write_engine.md R206). -/
def Obligations.WakeOrTimeoutGivesOneResult : Prop :=
  ∀ (s : State) (h : Nat), s.launch.preemptStrict = false → s.hostMay h = true → (s.port h).phase = .wrWait →
    s.wsem = true → (s.port h).wwaitInf = false → (s.port h).wwaitRem = 0#32 →
    ∃ t1 t2 u1 u2, exec (.wrWaitWake h) s = .next t1 ∧ exec (.wrExit h) t1 = .next t2 ∧
      exec (.wrWaitTimeout h) s = .next u1 ∧ exec (.wrExit h) u1 = .next u2 ∧
      t2.port h = u2.port h ∧ (t2.port h).result = s.wr.size - s.wr.count ∧ t2.wr = u2.wr

/-- An OPEN rebuilds all it reads (45_lifecycle.md R276): two states that agree on the building port's operands and
on the launch values and RING_C come out of OP_BUILD with the same block state, but for FAULT, host memory, the
ring cells, PRXD, the wires, OPENED, the other ports, and the building port's OVR and write-wait fields, whatever they
held before. -/
def Obligations.OpenForgetsTheEarlierInstance : Prop :=
  ∀ (s1 s2 t1 t2 : State) (h : Nat), s1.hostMay h = true → s2.hostMay h = true →
    (s1.port h).phase = .opBuild → (s2.port h).phase = .opBuild →
    (s1.port h).arg0 = (s2.port h).arg0 → (s1.port h).arg1 = (s2.port h).arg1 →
    (s1.port h).arg2 = (s2.port h).arg2 → (s1.port h).lcmd = (s2.port h).lcmd →
    exec (.opBuild h) s1 = .next t1 → exec (.opBuild h) s2 = .next t2 →
    t1.life.lstate = t2.life.lstate ∧ t1.cfg = t2.cfg ∧ t1.ring.queued = t2.ring.queued ∧
    t1.ring.rd = t2.ring.rd ∧ t1.ring.wr = t2.ring.wr ∧ t1.rd = t2.rd ∧ t1.wr = t2.wr ∧ t1.rsem = t2.rsem ∧
    t1.wsem = t2.wsem ∧ t1.rtimer = t2.rtimer ∧ t1.pwtimer = t2.pwtimer ∧ t1.ien = t2.ien ∧
    t1.dropcnt = t2.dropcnt ∧
    t1.periph = { t2.periph with prxd := t1.periph.prxd, txwire := t1.periph.txwire, rxwire := t1.periph.rxwire } ∧
    t1.irq = false ∧ t2.irq = false ∧
    t1.port h = { t2.port h with ovr := (t1.port h).ovr, wwaitRem := (t1.port h).wwaitRem,
                                 wwaitInf := (t1.port h).wwaitInf } ∧
    (t1.port h).result = 1#32 ∧ (t1.port h).phase = .idle ∧ (t1.port h).busy = false

/-- A host task's store, an entry of the schedule (20_memory.md R72, R73, R88): an admitted address takes the byte,
every other byte reads as before, host memory keeps its form and nothing else changes. That an address not admitted
takes no store is the model's choice (DESIGN CHOICE, notes/assumptions/11.md). -/
def Obligations.HostStoreWritesOneByte : Prop :=
  ∀ (s : State) (a : Word) (v : Byte), s.heldOff = false →
    (s.admitted a = true → ∃ t, runInput (.hostStore a v) s = .next t ∧
      Memory.read t.hmem a.toNat = some v ∧
      (∀ c : Word, c ≠ a → Memory.read t.hmem c.toNat = Memory.read s.hmem c.toNat) ∧
      (Memory.wf s.hmem → Memory.wf t.hmem) ∧
      t = { s with hmem := t.hmem }) ∧
    (s.admitted a = false → runInput (.hostStore a v) s = .next s)
end

