-- ==== Sys2Proof/Laws/State.lean ====
section
/-! SUPPORT. The small lemmas of the state updates: for each update and each field it leaves alone, that it does, and
for each field it writes, what stands there. Every one holds by rfl. -/

namespace Sys2Proof.Machine

/-! ### s.updPort h f -/

@[simp] theorem State.updPort_launch (s : State) (h : Nat) (f : Port → Port) :
    (s.updPort h f).launch = s.launch := rfl
@[simp] theorem State.updPort_ports (s : State) (h : Nat) (f : Port → Port) :
    (s.updPort h f).ports = s.ports.modify h f := rfl
@[simp] theorem State.updPort_life (s : State) (h : Nat) (f : Port → Port) :
    (s.updPort h f).life = s.life := rfl
@[simp] theorem State.updPort_cfg (s : State) (h : Nat) (f : Port → Port) :
    (s.updPort h f).cfg = s.cfg := rfl
@[simp] theorem State.updPort_ring (s : State) (h : Nat) (f : Port → Port) :
    (s.updPort h f).ring = s.ring := rfl
@[simp] theorem State.updPort_rd (s : State) (h : Nat) (f : Port → Port) :
    (s.updPort h f).rd = s.rd := rfl
@[simp] theorem State.updPort_wr (s : State) (h : Nat) (f : Port → Port) :
    (s.updPort h f).wr = s.wr := rfl
@[simp] theorem State.updPort_rsem (s : State) (h : Nat) (f : Port → Port) :
    (s.updPort h f).rsem = s.rsem := rfl
@[simp] theorem State.updPort_wsem (s : State) (h : Nat) (f : Port → Port) :
    (s.updPort h f).wsem = s.wsem := rfl
@[simp] theorem State.updPort_rtimer (s : State) (h : Nat) (f : Port → Port) :
    (s.updPort h f).rtimer = s.rtimer := rfl
@[simp] theorem State.updPort_pwtimer (s : State) (h : Nat) (f : Port → Port) :
    (s.updPort h f).pwtimer = s.pwtimer := rfl
@[simp] theorem State.updPort_ien (s : State) (h : Nat) (f : Port → Port) :
    (s.updPort h f).ien = s.ien := rfl
@[simp] theorem State.updPort_dropcnt (s : State) (h : Nat) (f : Port → Port) :
    (s.updPort h f).dropcnt = s.dropcnt := rfl
@[simp] theorem State.updPort_faults (s : State) (h : Nat) (f : Port → Port) :
    (s.updPort h f).faults = s.faults := rfl
@[simp] theorem State.updPort_periph (s : State) (h : Nat) (f : Port → Port) :
    (s.updPort h f).periph = s.periph := rfl
@[simp] theorem State.updPort_hmem (s : State) (h : Nat) (f : Port → Port) :
    (s.updPort h f).hmem = s.hmem := rfl
@[simp] theorem State.updPort_sched (s : State) (h : Nat) (f : Port → Port) :
    (s.updPort h f).sched = s.sched := rfl
@[simp] theorem State.updPort_busData (s : State) (h : Nat) (f : Port → Port) :
    (s.updPort h f).busData = s.busData := rfl
@[simp] theorem State.updPort_history (s : State) (h : Nat) (f : Port → Port) :
    (s.updPort h f).history = s.history := rfl
@[simp] theorem State.updPort_call (s : State) (h : Nat) (f : Port → Port) :
    (s.updPort h f).call = s.call := rfl

/-! ### s.goto h p -/

@[simp] theorem State.goto_launch (s : State) (h : Nat) (p : Phase) :
    (s.goto h p).launch = s.launch := rfl
@[simp] theorem State.goto_ports (s : State) (h : Nat) (p : Phase) :
    (s.goto h p).ports = s.ports.modify h fun q => { q with phase := p } := rfl
@[simp] theorem State.goto_life (s : State) (h : Nat) (p : Phase) :
    (s.goto h p).life = s.life := rfl
@[simp] theorem State.goto_cfg (s : State) (h : Nat) (p : Phase) :
    (s.goto h p).cfg = s.cfg := rfl
@[simp] theorem State.goto_ring (s : State) (h : Nat) (p : Phase) :
    (s.goto h p).ring = s.ring := rfl
@[simp] theorem State.goto_rd (s : State) (h : Nat) (p : Phase) :
    (s.goto h p).rd = s.rd := rfl
@[simp] theorem State.goto_wr (s : State) (h : Nat) (p : Phase) :
    (s.goto h p).wr = s.wr := rfl
@[simp] theorem State.goto_rsem (s : State) (h : Nat) (p : Phase) :
    (s.goto h p).rsem = s.rsem := rfl
@[simp] theorem State.goto_wsem (s : State) (h : Nat) (p : Phase) :
    (s.goto h p).wsem = s.wsem := rfl
@[simp] theorem State.goto_rtimer (s : State) (h : Nat) (p : Phase) :
    (s.goto h p).rtimer = s.rtimer := rfl
@[simp] theorem State.goto_pwtimer (s : State) (h : Nat) (p : Phase) :
    (s.goto h p).pwtimer = s.pwtimer := rfl
@[simp] theorem State.goto_ien (s : State) (h : Nat) (p : Phase) :
    (s.goto h p).ien = s.ien := rfl
@[simp] theorem State.goto_dropcnt (s : State) (h : Nat) (p : Phase) :
    (s.goto h p).dropcnt = s.dropcnt := rfl
@[simp] theorem State.goto_faults (s : State) (h : Nat) (p : Phase) :
    (s.goto h p).faults = s.faults := rfl
@[simp] theorem State.goto_periph (s : State) (h : Nat) (p : Phase) :
    (s.goto h p).periph = s.periph := rfl
@[simp] theorem State.goto_hmem (s : State) (h : Nat) (p : Phase) :
    (s.goto h p).hmem = s.hmem := rfl
@[simp] theorem State.goto_sched (s : State) (h : Nat) (p : Phase) :
    (s.goto h p).sched = s.sched := rfl
@[simp] theorem State.goto_busData (s : State) (h : Nat) (p : Phase) :
    (s.goto h p).busData = s.busData := rfl
@[simp] theorem State.goto_history (s : State) (h : Nat) (p : Phase) :
    (s.goto h p).history = s.history := rfl
@[simp] theorem State.goto_call (s : State) (h : Nat) (p : Phase) :
    (s.goto h p).call = s.call := rfl

/-! ### s.finish h r -/

@[simp] theorem State.finish_launch (s : State) (h : Nat) (r : Word) :
    (s.finish h r).launch = s.launch := rfl
@[simp] theorem State.finish_ports (s : State) (h : Nat) (r : Word) :
    (s.finish h r).ports = s.ports.modify h fun q => { q with result := r, phase := .idle, busy := false } := rfl
@[simp] theorem State.finish_life (s : State) (h : Nat) (r : Word) :
    (s.finish h r).life = s.life := rfl
@[simp] theorem State.finish_cfg (s : State) (h : Nat) (r : Word) :
    (s.finish h r).cfg = s.cfg := rfl
@[simp] theorem State.finish_ring (s : State) (h : Nat) (r : Word) :
    (s.finish h r).ring = s.ring := rfl
@[simp] theorem State.finish_rd (s : State) (h : Nat) (r : Word) :
    (s.finish h r).rd = s.rd := rfl
@[simp] theorem State.finish_wr (s : State) (h : Nat) (r : Word) :
    (s.finish h r).wr = s.wr := rfl
@[simp] theorem State.finish_rsem (s : State) (h : Nat) (r : Word) :
    (s.finish h r).rsem = s.rsem := rfl
@[simp] theorem State.finish_wsem (s : State) (h : Nat) (r : Word) :
    (s.finish h r).wsem = s.wsem := rfl
@[simp] theorem State.finish_rtimer (s : State) (h : Nat) (r : Word) :
    (s.finish h r).rtimer = s.rtimer := rfl
@[simp] theorem State.finish_pwtimer (s : State) (h : Nat) (r : Word) :
    (s.finish h r).pwtimer = s.pwtimer := rfl
@[simp] theorem State.finish_ien (s : State) (h : Nat) (r : Word) :
    (s.finish h r).ien = s.ien := rfl
@[simp] theorem State.finish_dropcnt (s : State) (h : Nat) (r : Word) :
    (s.finish h r).dropcnt = s.dropcnt := rfl
@[simp] theorem State.finish_faults (s : State) (h : Nat) (r : Word) :
    (s.finish h r).faults = s.faults := rfl
@[simp] theorem State.finish_periph (s : State) (h : Nat) (r : Word) :
    (s.finish h r).periph = s.periph := rfl
@[simp] theorem State.finish_hmem (s : State) (h : Nat) (r : Word) :
    (s.finish h r).hmem = s.hmem := rfl
@[simp] theorem State.finish_sched (s : State) (h : Nat) (r : Word) :
    (s.finish h r).sched = s.sched := rfl
@[simp] theorem State.finish_busData (s : State) (h : Nat) (r : Word) :
    (s.finish h r).busData = s.busData := rfl
@[simp] theorem State.finish_history (s : State) (h : Nat) (r : Word) :
    (s.finish h r).history = s.history := rfl
@[simp] theorem State.finish_call (s : State) (h : Nat) (r : Word) :
    (s.finish h r).call = s.call := rfl

/-! ### s.latchCmd h w -/

@[simp] theorem State.latchCmd_launch (s : State) (h : Nat) (w : Word) :
    (s.latchCmd h w).launch = s.launch := rfl
@[simp] theorem State.latchCmd_ports (s : State) (h : Nat) (w : Word) :
    (s.latchCmd h w).ports = s.ports.modify h fun q => { q with lcmd := w, ovr := false } := rfl
@[simp] theorem State.latchCmd_life (s : State) (h : Nat) (w : Word) :
    (s.latchCmd h w).life = s.life := rfl
@[simp] theorem State.latchCmd_cfg (s : State) (h : Nat) (w : Word) :
    (s.latchCmd h w).cfg = s.cfg := rfl
@[simp] theorem State.latchCmd_ring (s : State) (h : Nat) (w : Word) :
    (s.latchCmd h w).ring = s.ring := rfl
@[simp] theorem State.latchCmd_rd (s : State) (h : Nat) (w : Word) :
    (s.latchCmd h w).rd = s.rd := rfl
@[simp] theorem State.latchCmd_wr (s : State) (h : Nat) (w : Word) :
    (s.latchCmd h w).wr = s.wr := rfl
@[simp] theorem State.latchCmd_rsem (s : State) (h : Nat) (w : Word) :
    (s.latchCmd h w).rsem = s.rsem := rfl
@[simp] theorem State.latchCmd_wsem (s : State) (h : Nat) (w : Word) :
    (s.latchCmd h w).wsem = s.wsem := rfl
@[simp] theorem State.latchCmd_rtimer (s : State) (h : Nat) (w : Word) :
    (s.latchCmd h w).rtimer = s.rtimer := rfl
@[simp] theorem State.latchCmd_pwtimer (s : State) (h : Nat) (w : Word) :
    (s.latchCmd h w).pwtimer = s.pwtimer := rfl
@[simp] theorem State.latchCmd_ien (s : State) (h : Nat) (w : Word) :
    (s.latchCmd h w).ien = s.ien := rfl
@[simp] theorem State.latchCmd_dropcnt (s : State) (h : Nat) (w : Word) :
    (s.latchCmd h w).dropcnt = s.dropcnt := rfl
@[simp] theorem State.latchCmd_faults (s : State) (h : Nat) (w : Word) :
    (s.latchCmd h w).faults = s.faults := rfl
@[simp] theorem State.latchCmd_periph (s : State) (h : Nat) (w : Word) :
    (s.latchCmd h w).periph = s.periph := rfl
@[simp] theorem State.latchCmd_hmem (s : State) (h : Nat) (w : Word) :
    (s.latchCmd h w).hmem = s.hmem := rfl
@[simp] theorem State.latchCmd_sched (s : State) (h : Nat) (w : Word) :
    (s.latchCmd h w).sched = s.sched := rfl
@[simp] theorem State.latchCmd_busData (s : State) (h : Nat) (w : Word) :
    (s.latchCmd h w).busData = s.busData := rfl
@[simp] theorem State.latchCmd_history (s : State) (h : Nat) (w : Word) :
    (s.latchCmd h w).history = s.history := rfl
@[simp] theorem State.latchCmd_call (s : State) (h : Nat) (w : Word) :
    (s.latchCmd h w).call = s.call := rfl

/-! ### s.setBusy h -/

@[simp] theorem State.setBusy_launch (s : State) (h : Nat) :
    (s.setBusy h).launch = s.launch := rfl
@[simp] theorem State.setBusy_ports (s : State) (h : Nat) :
    (s.setBusy h).ports = s.ports.modify h fun q => { q with busy := true } := rfl
@[simp] theorem State.setBusy_life (s : State) (h : Nat) :
    (s.setBusy h).life = s.life := rfl
@[simp] theorem State.setBusy_cfg (s : State) (h : Nat) :
    (s.setBusy h).cfg = s.cfg := rfl
@[simp] theorem State.setBusy_ring (s : State) (h : Nat) :
    (s.setBusy h).ring = s.ring := rfl
@[simp] theorem State.setBusy_rd (s : State) (h : Nat) :
    (s.setBusy h).rd = s.rd := rfl
@[simp] theorem State.setBusy_wr (s : State) (h : Nat) :
    (s.setBusy h).wr = s.wr := rfl
@[simp] theorem State.setBusy_rsem (s : State) (h : Nat) :
    (s.setBusy h).rsem = s.rsem := rfl
@[simp] theorem State.setBusy_wsem (s : State) (h : Nat) :
    (s.setBusy h).wsem = s.wsem := rfl
@[simp] theorem State.setBusy_rtimer (s : State) (h : Nat) :
    (s.setBusy h).rtimer = s.rtimer := rfl
@[simp] theorem State.setBusy_pwtimer (s : State) (h : Nat) :
    (s.setBusy h).pwtimer = s.pwtimer := rfl
@[simp] theorem State.setBusy_ien (s : State) (h : Nat) :
    (s.setBusy h).ien = s.ien := rfl
@[simp] theorem State.setBusy_dropcnt (s : State) (h : Nat) :
    (s.setBusy h).dropcnt = s.dropcnt := rfl
@[simp] theorem State.setBusy_faults (s : State) (h : Nat) :
    (s.setBusy h).faults = s.faults := rfl
@[simp] theorem State.setBusy_periph (s : State) (h : Nat) :
    (s.setBusy h).periph = s.periph := rfl
@[simp] theorem State.setBusy_hmem (s : State) (h : Nat) :
    (s.setBusy h).hmem = s.hmem := rfl
@[simp] theorem State.setBusy_sched (s : State) (h : Nat) :
    (s.setBusy h).sched = s.sched := rfl
@[simp] theorem State.setBusy_busData (s : State) (h : Nat) :
    (s.setBusy h).busData = s.busData := rfl
@[simp] theorem State.setBusy_history (s : State) (h : Nat) :
    (s.setBusy h).history = s.history := rfl
@[simp] theorem State.setBusy_call (s : State) (h : Nat) :
    (s.setBusy h).call = s.call := rfl

/-! ### s.overrun h -/

@[simp] theorem State.overrun_launch (s : State) (h : Nat) :
    (s.overrun h).launch = s.launch := rfl
@[simp] theorem State.overrun_ports (s : State) (h : Nat) :
    (s.overrun h).ports = s.ports.modify h fun q => { q with ovr := true } := rfl
@[simp] theorem State.overrun_life (s : State) (h : Nat) :
    (s.overrun h).life = s.life := rfl
@[simp] theorem State.overrun_cfg (s : State) (h : Nat) :
    (s.overrun h).cfg = s.cfg := rfl
@[simp] theorem State.overrun_ring (s : State) (h : Nat) :
    (s.overrun h).ring = s.ring := rfl
@[simp] theorem State.overrun_rd (s : State) (h : Nat) :
    (s.overrun h).rd = s.rd := rfl
@[simp] theorem State.overrun_wr (s : State) (h : Nat) :
    (s.overrun h).wr = s.wr := rfl
@[simp] theorem State.overrun_rsem (s : State) (h : Nat) :
    (s.overrun h).rsem = s.rsem := rfl
@[simp] theorem State.overrun_wsem (s : State) (h : Nat) :
    (s.overrun h).wsem = s.wsem := rfl
@[simp] theorem State.overrun_rtimer (s : State) (h : Nat) :
    (s.overrun h).rtimer = s.rtimer := rfl
@[simp] theorem State.overrun_pwtimer (s : State) (h : Nat) :
    (s.overrun h).pwtimer = s.pwtimer := rfl
@[simp] theorem State.overrun_ien (s : State) (h : Nat) :
    (s.overrun h).ien = s.ien := rfl
@[simp] theorem State.overrun_dropcnt (s : State) (h : Nat) :
    (s.overrun h).dropcnt = s.dropcnt := rfl
@[simp] theorem State.overrun_faults (s : State) (h : Nat) :
    (s.overrun h).faults = s.faults := rfl
@[simp] theorem State.overrun_periph (s : State) (h : Nat) :
    (s.overrun h).periph = s.periph := rfl
@[simp] theorem State.overrun_hmem (s : State) (h : Nat) :
    (s.overrun h).hmem = s.hmem := rfl
@[simp] theorem State.overrun_sched (s : State) (h : Nat) :
    (s.overrun h).sched = s.sched := rfl
@[simp] theorem State.overrun_busData (s : State) (h : Nat) :
    (s.overrun h).busData = s.busData := rfl
@[simp] theorem State.overrun_history (s : State) (h : Nat) :
    (s.overrun h).history = s.history := rfl
@[simp] theorem State.overrun_call (s : State) (h : Nat) :
    (s.overrun h).call = s.call := rfl

/-! ### s.raiseFault n -/

@[simp] theorem State.raiseFault_launch (s : State) (n : Nat) :
    (s.raiseFault n).launch = s.launch := rfl
@[simp] theorem State.raiseFault_ports (s : State) (n : Nat) :
    (s.raiseFault n).ports = s.ports := rfl
@[simp] theorem State.raiseFault_life (s : State) (n : Nat) :
    (s.raiseFault n).life = s.life := rfl
@[simp] theorem State.raiseFault_cfg (s : State) (n : Nat) :
    (s.raiseFault n).cfg = s.cfg := rfl
@[simp] theorem State.raiseFault_ring (s : State) (n : Nat) :
    (s.raiseFault n).ring = s.ring := rfl
@[simp] theorem State.raiseFault_rd (s : State) (n : Nat) :
    (s.raiseFault n).rd = s.rd := rfl
@[simp] theorem State.raiseFault_wr (s : State) (n : Nat) :
    (s.raiseFault n).wr = s.wr := rfl
@[simp] theorem State.raiseFault_rsem (s : State) (n : Nat) :
    (s.raiseFault n).rsem = s.rsem := rfl
@[simp] theorem State.raiseFault_wsem (s : State) (n : Nat) :
    (s.raiseFault n).wsem = s.wsem := rfl
@[simp] theorem State.raiseFault_rtimer (s : State) (n : Nat) :
    (s.raiseFault n).rtimer = s.rtimer := rfl
@[simp] theorem State.raiseFault_pwtimer (s : State) (n : Nat) :
    (s.raiseFault n).pwtimer = s.pwtimer := rfl
@[simp] theorem State.raiseFault_ien (s : State) (n : Nat) :
    (s.raiseFault n).ien = s.ien := rfl
@[simp] theorem State.raiseFault_dropcnt (s : State) (n : Nat) :
    (s.raiseFault n).dropcnt = s.dropcnt := rfl
@[simp] theorem State.raiseFault_faults (s : State) (n : Nat) :
    (s.raiseFault n).faults = s.faults ||| bitAt true n := rfl
@[simp] theorem State.raiseFault_periph (s : State) (n : Nat) :
    (s.raiseFault n).periph = s.periph := rfl
@[simp] theorem State.raiseFault_hmem (s : State) (n : Nat) :
    (s.raiseFault n).hmem = s.hmem := rfl
@[simp] theorem State.raiseFault_sched (s : State) (n : Nat) :
    (s.raiseFault n).sched = s.sched := rfl
@[simp] theorem State.raiseFault_busData (s : State) (n : Nat) :
    (s.raiseFault n).busData = s.busData := rfl
@[simp] theorem State.raiseFault_history (s : State) (n : Nat) :
    (s.raiseFault n).history = s.history := rfl
@[simp] theorem State.raiseFault_call (s : State) (n : Nat) :
    (s.raiseFault n).call = s.call := rfl

/-! ### s.recordStep k a p o -/

@[simp] theorem State.recordStep_launch (s : State) (k : BitVec 8) (a : Agent) (p : Option Nat) (o : List Word) :
    (s.recordStep k a p o).launch = s.launch := rfl
@[simp] theorem State.recordStep_ports (s : State) (k : BitVec 8) (a : Agent) (p : Option Nat) (o : List Word) :
    (s.recordStep k a p o).ports = s.ports := rfl
@[simp] theorem State.recordStep_life (s : State) (k : BitVec 8) (a : Agent) (p : Option Nat) (o : List Word) :
    (s.recordStep k a p o).life = s.life := rfl
@[simp] theorem State.recordStep_cfg (s : State) (k : BitVec 8) (a : Agent) (p : Option Nat) (o : List Word) :
    (s.recordStep k a p o).cfg = s.cfg := rfl
@[simp] theorem State.recordStep_ring (s : State) (k : BitVec 8) (a : Agent) (p : Option Nat) (o : List Word) :
    (s.recordStep k a p o).ring = s.ring := rfl
@[simp] theorem State.recordStep_rd (s : State) (k : BitVec 8) (a : Agent) (p : Option Nat) (o : List Word) :
    (s.recordStep k a p o).rd = s.rd := rfl
@[simp] theorem State.recordStep_wr (s : State) (k : BitVec 8) (a : Agent) (p : Option Nat) (o : List Word) :
    (s.recordStep k a p o).wr = s.wr := rfl
@[simp] theorem State.recordStep_rsem (s : State) (k : BitVec 8) (a : Agent) (p : Option Nat) (o : List Word) :
    (s.recordStep k a p o).rsem = s.rsem := rfl
@[simp] theorem State.recordStep_wsem (s : State) (k : BitVec 8) (a : Agent) (p : Option Nat) (o : List Word) :
    (s.recordStep k a p o).wsem = s.wsem := rfl
@[simp] theorem State.recordStep_rtimer (s : State) (k : BitVec 8) (a : Agent) (p : Option Nat) (o : List Word) :
    (s.recordStep k a p o).rtimer = s.rtimer := rfl
@[simp] theorem State.recordStep_pwtimer (s : State) (k : BitVec 8) (a : Agent) (p : Option Nat) (o : List Word) :
    (s.recordStep k a p o).pwtimer = s.pwtimer := rfl
@[simp] theorem State.recordStep_ien (s : State) (k : BitVec 8) (a : Agent) (p : Option Nat) (o : List Word) :
    (s.recordStep k a p o).ien = s.ien := rfl
@[simp] theorem State.recordStep_dropcnt (s : State) (k : BitVec 8) (a : Agent) (p : Option Nat) (o : List Word) :
    (s.recordStep k a p o).dropcnt = s.dropcnt := rfl
@[simp] theorem State.recordStep_faults (s : State) (k : BitVec 8) (a : Agent) (p : Option Nat) (o : List Word) :
    (s.recordStep k a p o).faults = s.faults := rfl
@[simp] theorem State.recordStep_periph (s : State) (k : BitVec 8) (a : Agent) (p : Option Nat) (o : List Word) :
    (s.recordStep k a p o).periph = s.periph := rfl
@[simp] theorem State.recordStep_hmem (s : State) (k : BitVec 8) (a : Agent) (p : Option Nat) (o : List Word) :
    (s.recordStep k a p o).hmem = s.hmem := rfl
@[simp] theorem State.recordStep_sched (s : State) (k : BitVec 8) (a : Agent) (p : Option Nat) (o : List Word) :
    (s.recordStep k a p o).sched = s.sched := rfl
@[simp] theorem State.recordStep_busData (s : State) (k : BitVec 8) (a : Agent) (p : Option Nat) (o : List Word) :
    (s.recordStep k a p o).busData = s.busData := rfl
@[simp] theorem State.recordStep_history (s : State) (k : BitVec 8) (a : Agent) (p : Option Nat) (o : List Word) :
    (s.recordStep k a p o).history = s.history ++ [⟨k, a, p, o, none⟩] := rfl
@[simp] theorem State.recordStep_call (s : State) (k : BitVec 8) (a : Agent) (p : Option Nat) (o : List Word) :
    (s.recordStep k a p o).call = s.call := rfl

/-! ### s.recordSub k a p o r -/

@[simp] theorem State.recordSub_launch (s : State) (k : BitVec 8) (a : Agent) (p : Option Nat) (o : List Word) (r : SubOutcome) :
    (s.recordSub k a p o r).launch = s.launch := rfl
@[simp] theorem State.recordSub_ports (s : State) (k : BitVec 8) (a : Agent) (p : Option Nat) (o : List Word) (r : SubOutcome) :
    (s.recordSub k a p o r).ports = s.ports := rfl
@[simp] theorem State.recordSub_life (s : State) (k : BitVec 8) (a : Agent) (p : Option Nat) (o : List Word) (r : SubOutcome) :
    (s.recordSub k a p o r).life = s.life := rfl
@[simp] theorem State.recordSub_cfg (s : State) (k : BitVec 8) (a : Agent) (p : Option Nat) (o : List Word) (r : SubOutcome) :
    (s.recordSub k a p o r).cfg = s.cfg := rfl
@[simp] theorem State.recordSub_ring (s : State) (k : BitVec 8) (a : Agent) (p : Option Nat) (o : List Word) (r : SubOutcome) :
    (s.recordSub k a p o r).ring = s.ring := rfl
@[simp] theorem State.recordSub_rd (s : State) (k : BitVec 8) (a : Agent) (p : Option Nat) (o : List Word) (r : SubOutcome) :
    (s.recordSub k a p o r).rd = s.rd := rfl
@[simp] theorem State.recordSub_wr (s : State) (k : BitVec 8) (a : Agent) (p : Option Nat) (o : List Word) (r : SubOutcome) :
    (s.recordSub k a p o r).wr = s.wr := rfl
@[simp] theorem State.recordSub_rsem (s : State) (k : BitVec 8) (a : Agent) (p : Option Nat) (o : List Word) (r : SubOutcome) :
    (s.recordSub k a p o r).rsem = s.rsem := rfl
@[simp] theorem State.recordSub_wsem (s : State) (k : BitVec 8) (a : Agent) (p : Option Nat) (o : List Word) (r : SubOutcome) :
    (s.recordSub k a p o r).wsem = s.wsem := rfl
@[simp] theorem State.recordSub_rtimer (s : State) (k : BitVec 8) (a : Agent) (p : Option Nat) (o : List Word) (r : SubOutcome) :
    (s.recordSub k a p o r).rtimer = s.rtimer := rfl
@[simp] theorem State.recordSub_pwtimer (s : State) (k : BitVec 8) (a : Agent) (p : Option Nat) (o : List Word) (r : SubOutcome) :
    (s.recordSub k a p o r).pwtimer = s.pwtimer := rfl
@[simp] theorem State.recordSub_ien (s : State) (k : BitVec 8) (a : Agent) (p : Option Nat) (o : List Word) (r : SubOutcome) :
    (s.recordSub k a p o r).ien = s.ien := rfl
@[simp] theorem State.recordSub_dropcnt (s : State) (k : BitVec 8) (a : Agent) (p : Option Nat) (o : List Word) (r : SubOutcome) :
    (s.recordSub k a p o r).dropcnt = s.dropcnt := rfl
@[simp] theorem State.recordSub_faults (s : State) (k : BitVec 8) (a : Agent) (p : Option Nat) (o : List Word) (r : SubOutcome) :
    (s.recordSub k a p o r).faults = s.faults := rfl
@[simp] theorem State.recordSub_periph (s : State) (k : BitVec 8) (a : Agent) (p : Option Nat) (o : List Word) (r : SubOutcome) :
    (s.recordSub k a p o r).periph = s.periph := rfl
@[simp] theorem State.recordSub_hmem (s : State) (k : BitVec 8) (a : Agent) (p : Option Nat) (o : List Word) (r : SubOutcome) :
    (s.recordSub k a p o r).hmem = s.hmem := rfl
@[simp] theorem State.recordSub_sched (s : State) (k : BitVec 8) (a : Agent) (p : Option Nat) (o : List Word) (r : SubOutcome) :
    (s.recordSub k a p o r).sched = s.sched := rfl
@[simp] theorem State.recordSub_busData (s : State) (k : BitVec 8) (a : Agent) (p : Option Nat) (o : List Word) (r : SubOutcome) :
    (s.recordSub k a p o r).busData = s.busData := rfl
@[simp] theorem State.recordSub_history (s : State) (k : BitVec 8) (a : Agent) (p : Option Nat) (o : List Word) (r : SubOutcome) :
    (s.recordSub k a p o r).history = s.history ++ [⟨k, a, p, o, some r⟩] := rfl
@[simp] theorem State.recordSub_call (s : State) (k : BitVec 8) (a : Agent) (p : Option Nat) (o : List Word) (r : SubOutcome) :
    (s.recordSub k a p o r).call = s.call := rfl

/-! ### s.post .rsem -/

@[simp] theorem State.post_rsem_launch (s : State) :
    (s.post .rsem).launch = s.launch := rfl
@[simp] theorem State.post_rsem_ports (s : State) :
    (s.post .rsem).ports = s.ports := rfl
@[simp] theorem State.post_rsem_life (s : State) :
    (s.post .rsem).life = s.life := rfl
@[simp] theorem State.post_rsem_cfg (s : State) :
    (s.post .rsem).cfg = s.cfg := rfl
@[simp] theorem State.post_rsem_ring (s : State) :
    (s.post .rsem).ring = s.ring := rfl
@[simp] theorem State.post_rsem_rd (s : State) :
    (s.post .rsem).rd = s.rd := rfl
@[simp] theorem State.post_rsem_wr (s : State) :
    (s.post .rsem).wr = s.wr := rfl
@[simp] theorem State.post_rsem_rsem (s : State) :
    (s.post .rsem).rsem = true := rfl
@[simp] theorem State.post_rsem_wsem (s : State) :
    (s.post .rsem).wsem = s.wsem := rfl
@[simp] theorem State.post_rsem_rtimer (s : State) :
    (s.post .rsem).rtimer = s.rtimer := rfl
@[simp] theorem State.post_rsem_pwtimer (s : State) :
    (s.post .rsem).pwtimer = s.pwtimer := rfl
@[simp] theorem State.post_rsem_ien (s : State) :
    (s.post .rsem).ien = s.ien := rfl
@[simp] theorem State.post_rsem_dropcnt (s : State) :
    (s.post .rsem).dropcnt = s.dropcnt := rfl
@[simp] theorem State.post_rsem_faults (s : State) :
    (s.post .rsem).faults = s.faults := rfl
@[simp] theorem State.post_rsem_periph (s : State) :
    (s.post .rsem).periph = s.periph := rfl
@[simp] theorem State.post_rsem_hmem (s : State) :
    (s.post .rsem).hmem = s.hmem := rfl
@[simp] theorem State.post_rsem_sched (s : State) :
    (s.post .rsem).sched = s.sched := rfl
@[simp] theorem State.post_rsem_busData (s : State) :
    (s.post .rsem).busData = s.busData := rfl
@[simp] theorem State.post_rsem_history (s : State) :
    (s.post .rsem).history = s.history := rfl
@[simp] theorem State.post_rsem_call (s : State) :
    (s.post .rsem).call = s.call := rfl

/-! ### s.post .wsem -/

@[simp] theorem State.post_wsem_launch (s : State) :
    (s.post .wsem).launch = s.launch := rfl
@[simp] theorem State.post_wsem_ports (s : State) :
    (s.post .wsem).ports = s.ports := rfl
@[simp] theorem State.post_wsem_life (s : State) :
    (s.post .wsem).life = s.life := rfl
@[simp] theorem State.post_wsem_cfg (s : State) :
    (s.post .wsem).cfg = s.cfg := rfl
@[simp] theorem State.post_wsem_ring (s : State) :
    (s.post .wsem).ring = s.ring := rfl
@[simp] theorem State.post_wsem_rd (s : State) :
    (s.post .wsem).rd = s.rd := rfl
@[simp] theorem State.post_wsem_wr (s : State) :
    (s.post .wsem).wr = s.wr := rfl
@[simp] theorem State.post_wsem_rsem (s : State) :
    (s.post .wsem).rsem = s.rsem := rfl
@[simp] theorem State.post_wsem_wsem (s : State) :
    (s.post .wsem).wsem = true := rfl
@[simp] theorem State.post_wsem_rtimer (s : State) :
    (s.post .wsem).rtimer = s.rtimer := rfl
@[simp] theorem State.post_wsem_pwtimer (s : State) :
    (s.post .wsem).pwtimer = s.pwtimer := rfl
@[simp] theorem State.post_wsem_ien (s : State) :
    (s.post .wsem).ien = s.ien := rfl
@[simp] theorem State.post_wsem_dropcnt (s : State) :
    (s.post .wsem).dropcnt = s.dropcnt := rfl
@[simp] theorem State.post_wsem_faults (s : State) :
    (s.post .wsem).faults = s.faults := rfl
@[simp] theorem State.post_wsem_periph (s : State) :
    (s.post .wsem).periph = s.periph := rfl
@[simp] theorem State.post_wsem_hmem (s : State) :
    (s.post .wsem).hmem = s.hmem := rfl
@[simp] theorem State.post_wsem_sched (s : State) :
    (s.post .wsem).sched = s.sched := rfl
@[simp] theorem State.post_wsem_busData (s : State) :
    (s.post .wsem).busData = s.busData := rfl
@[simp] theorem State.post_wsem_history (s : State) :
    (s.post .wsem).history = s.history := rfl
@[simp] theorem State.post_wsem_call (s : State) :
    (s.post .wsem).call = s.call := rfl

/-! ### s.take .rsem -/

@[simp] theorem State.take_rsem_launch (s : State) :
    (s.take .rsem).launch = s.launch := rfl
@[simp] theorem State.take_rsem_ports (s : State) :
    (s.take .rsem).ports = s.ports := rfl
@[simp] theorem State.take_rsem_life (s : State) :
    (s.take .rsem).life = s.life := rfl
@[simp] theorem State.take_rsem_cfg (s : State) :
    (s.take .rsem).cfg = s.cfg := rfl
@[simp] theorem State.take_rsem_ring (s : State) :
    (s.take .rsem).ring = s.ring := rfl
@[simp] theorem State.take_rsem_rd (s : State) :
    (s.take .rsem).rd = s.rd := rfl
@[simp] theorem State.take_rsem_wr (s : State) :
    (s.take .rsem).wr = s.wr := rfl
@[simp] theorem State.take_rsem_rsem (s : State) :
    (s.take .rsem).rsem = false := rfl
@[simp] theorem State.take_rsem_wsem (s : State) :
    (s.take .rsem).wsem = s.wsem := rfl
@[simp] theorem State.take_rsem_rtimer (s : State) :
    (s.take .rsem).rtimer = s.rtimer := rfl
@[simp] theorem State.take_rsem_pwtimer (s : State) :
    (s.take .rsem).pwtimer = s.pwtimer := rfl
@[simp] theorem State.take_rsem_ien (s : State) :
    (s.take .rsem).ien = s.ien := rfl
@[simp] theorem State.take_rsem_dropcnt (s : State) :
    (s.take .rsem).dropcnt = s.dropcnt := rfl
@[simp] theorem State.take_rsem_faults (s : State) :
    (s.take .rsem).faults = s.faults := rfl
@[simp] theorem State.take_rsem_periph (s : State) :
    (s.take .rsem).periph = s.periph := rfl
@[simp] theorem State.take_rsem_hmem (s : State) :
    (s.take .rsem).hmem = s.hmem := rfl
@[simp] theorem State.take_rsem_sched (s : State) :
    (s.take .rsem).sched = s.sched := rfl
@[simp] theorem State.take_rsem_busData (s : State) :
    (s.take .rsem).busData = s.busData := rfl
@[simp] theorem State.take_rsem_history (s : State) :
    (s.take .rsem).history = s.history := rfl
@[simp] theorem State.take_rsem_call (s : State) :
    (s.take .rsem).call = s.call := rfl

/-! ### s.take .wsem -/

@[simp] theorem State.take_wsem_launch (s : State) :
    (s.take .wsem).launch = s.launch := rfl
@[simp] theorem State.take_wsem_ports (s : State) :
    (s.take .wsem).ports = s.ports := rfl
@[simp] theorem State.take_wsem_life (s : State) :
    (s.take .wsem).life = s.life := rfl
@[simp] theorem State.take_wsem_cfg (s : State) :
    (s.take .wsem).cfg = s.cfg := rfl
@[simp] theorem State.take_wsem_ring (s : State) :
    (s.take .wsem).ring = s.ring := rfl
@[simp] theorem State.take_wsem_rd (s : State) :
    (s.take .wsem).rd = s.rd := rfl
@[simp] theorem State.take_wsem_wr (s : State) :
    (s.take .wsem).wr = s.wr := rfl
@[simp] theorem State.take_wsem_rsem (s : State) :
    (s.take .wsem).rsem = s.rsem := rfl
@[simp] theorem State.take_wsem_wsem (s : State) :
    (s.take .wsem).wsem = false := rfl
@[simp] theorem State.take_wsem_rtimer (s : State) :
    (s.take .wsem).rtimer = s.rtimer := rfl
@[simp] theorem State.take_wsem_pwtimer (s : State) :
    (s.take .wsem).pwtimer = s.pwtimer := rfl
@[simp] theorem State.take_wsem_ien (s : State) :
    (s.take .wsem).ien = s.ien := rfl
@[simp] theorem State.take_wsem_dropcnt (s : State) :
    (s.take .wsem).dropcnt = s.dropcnt := rfl
@[simp] theorem State.take_wsem_faults (s : State) :
    (s.take .wsem).faults = s.faults := rfl
@[simp] theorem State.take_wsem_periph (s : State) :
    (s.take .wsem).periph = s.periph := rfl
@[simp] theorem State.take_wsem_hmem (s : State) :
    (s.take .wsem).hmem = s.hmem := rfl
@[simp] theorem State.take_wsem_sched (s : State) :
    (s.take .wsem).sched = s.sched := rfl
@[simp] theorem State.take_wsem_busData (s : State) :
    (s.take .wsem).busData = s.busData := rfl
@[simp] theorem State.take_wsem_history (s : State) :
    (s.take .wsem).history = s.history := rfl
@[simp] theorem State.take_wsem_call (s : State) :
    (s.take .wsem).call = s.call := rfl

/-! ### s.popInput r -/

@[simp] theorem State.popInput_launch (s : State) (r : List Input) :
    (s.popInput r).launch = s.launch := rfl
@[simp] theorem State.popInput_ports (s : State) (r : List Input) :
    (s.popInput r).ports = s.ports := rfl
@[simp] theorem State.popInput_life (s : State) (r : List Input) :
    (s.popInput r).life = s.life := rfl
@[simp] theorem State.popInput_cfg (s : State) (r : List Input) :
    (s.popInput r).cfg = s.cfg := rfl
@[simp] theorem State.popInput_ring (s : State) (r : List Input) :
    (s.popInput r).ring = s.ring := rfl
@[simp] theorem State.popInput_rd (s : State) (r : List Input) :
    (s.popInput r).rd = s.rd := rfl
@[simp] theorem State.popInput_wr (s : State) (r : List Input) :
    (s.popInput r).wr = s.wr := rfl
@[simp] theorem State.popInput_rsem (s : State) (r : List Input) :
    (s.popInput r).rsem = s.rsem := rfl
@[simp] theorem State.popInput_wsem (s : State) (r : List Input) :
    (s.popInput r).wsem = s.wsem := rfl
@[simp] theorem State.popInput_rtimer (s : State) (r : List Input) :
    (s.popInput r).rtimer = s.rtimer := rfl
@[simp] theorem State.popInput_pwtimer (s : State) (r : List Input) :
    (s.popInput r).pwtimer = s.pwtimer := rfl
@[simp] theorem State.popInput_ien (s : State) (r : List Input) :
    (s.popInput r).ien = s.ien := rfl
@[simp] theorem State.popInput_dropcnt (s : State) (r : List Input) :
    (s.popInput r).dropcnt = s.dropcnt := rfl
@[simp] theorem State.popInput_faults (s : State) (r : List Input) :
    (s.popInput r).faults = s.faults := rfl
@[simp] theorem State.popInput_periph (s : State) (r : List Input) :
    (s.popInput r).periph = s.periph := rfl
@[simp] theorem State.popInput_hmem (s : State) (r : List Input) :
    (s.popInput r).hmem = s.hmem := rfl
@[simp] theorem State.popInput_sched (s : State) (r : List Input) :
    (s.popInput r).sched = r := rfl
@[simp] theorem State.popInput_busData (s : State) (r : List Input) :
    (s.popInput r).busData = s.busData := rfl
@[simp] theorem State.popInput_history (s : State) (r : List Input) :
    (s.popInput r).history = s.history := rfl
@[simp] theorem State.popInput_call (s : State) (r : List Input) :
    (s.popInput r).call = s.call := rfl

/-! ### s.endCall -/

@[simp] theorem State.endCall_launch (s : State) :
    (s.endCall).launch = s.launch := rfl
@[simp] theorem State.endCall_ports (s : State) :
    (s.endCall).ports = s.ports := rfl
@[simp] theorem State.endCall_life (s : State) :
    (s.endCall).life = s.life := rfl
@[simp] theorem State.endCall_cfg (s : State) :
    (s.endCall).cfg = s.cfg := rfl
@[simp] theorem State.endCall_ring (s : State) :
    (s.endCall).ring = s.ring := rfl
@[simp] theorem State.endCall_rd (s : State) :
    (s.endCall).rd = s.rd := rfl
@[simp] theorem State.endCall_wr (s : State) :
    (s.endCall).wr = s.wr := rfl
@[simp] theorem State.endCall_rsem (s : State) :
    (s.endCall).rsem = s.rsem := rfl
@[simp] theorem State.endCall_wsem (s : State) :
    (s.endCall).wsem = s.wsem := rfl
@[simp] theorem State.endCall_rtimer (s : State) :
    (s.endCall).rtimer = s.rtimer := rfl
@[simp] theorem State.endCall_pwtimer (s : State) :
    (s.endCall).pwtimer = s.pwtimer := rfl
@[simp] theorem State.endCall_ien (s : State) :
    (s.endCall).ien = s.ien := rfl
@[simp] theorem State.endCall_dropcnt (s : State) :
    (s.endCall).dropcnt = s.dropcnt := rfl
@[simp] theorem State.endCall_faults (s : State) :
    (s.endCall).faults = s.faults := rfl
@[simp] theorem State.endCall_periph (s : State) :
    (s.endCall).periph = s.periph := rfl
@[simp] theorem State.endCall_hmem (s : State) :
    (s.endCall).hmem = s.hmem := rfl
@[simp] theorem State.endCall_sched (s : State) :
    (s.endCall).sched = s.sched := rfl
@[simp] theorem State.endCall_busData (s : State) :
    (s.endCall).busData = s.busData := rfl
@[simp] theorem State.endCall_history (s : State) :
    (s.endCall).history = s.history := rfl
@[simp] theorem State.endCall_call (s : State) :
    (s.endCall).call = none := rfl

/-! ### s.pushInput i -/

@[simp] theorem State.pushInput_launch (s : State) (i : Input) :
    (s.pushInput i).launch = s.launch := rfl
@[simp] theorem State.pushInput_ports (s : State) (i : Input) :
    (s.pushInput i).ports = s.ports := rfl
@[simp] theorem State.pushInput_life (s : State) (i : Input) :
    (s.pushInput i).life = s.life := rfl
@[simp] theorem State.pushInput_cfg (s : State) (i : Input) :
    (s.pushInput i).cfg = s.cfg := rfl
@[simp] theorem State.pushInput_ring (s : State) (i : Input) :
    (s.pushInput i).ring = s.ring := rfl
@[simp] theorem State.pushInput_rd (s : State) (i : Input) :
    (s.pushInput i).rd = s.rd := rfl
@[simp] theorem State.pushInput_wr (s : State) (i : Input) :
    (s.pushInput i).wr = s.wr := rfl
@[simp] theorem State.pushInput_rsem (s : State) (i : Input) :
    (s.pushInput i).rsem = s.rsem := rfl
@[simp] theorem State.pushInput_wsem (s : State) (i : Input) :
    (s.pushInput i).wsem = s.wsem := rfl
@[simp] theorem State.pushInput_rtimer (s : State) (i : Input) :
    (s.pushInput i).rtimer = s.rtimer := rfl
@[simp] theorem State.pushInput_pwtimer (s : State) (i : Input) :
    (s.pushInput i).pwtimer = s.pwtimer := rfl
@[simp] theorem State.pushInput_ien (s : State) (i : Input) :
    (s.pushInput i).ien = s.ien := rfl
@[simp] theorem State.pushInput_dropcnt (s : State) (i : Input) :
    (s.pushInput i).dropcnt = s.dropcnt := rfl
@[simp] theorem State.pushInput_faults (s : State) (i : Input) :
    (s.pushInput i).faults = s.faults := rfl
@[simp] theorem State.pushInput_periph (s : State) (i : Input) :
    (s.pushInput i).periph = s.periph := rfl
@[simp] theorem State.pushInput_hmem (s : State) (i : Input) :
    (s.pushInput i).hmem = s.hmem := rfl
@[simp] theorem State.pushInput_sched (s : State) (i : Input) :
    (s.pushInput i).sched = i :: s.sched := rfl
@[simp] theorem State.pushInput_busData (s : State) (i : Input) :
    (s.pushInput i).busData = s.busData := rfl
@[simp] theorem State.pushInput_history (s : State) (i : Input) :
    (s.pushInput i).history = s.history := rfl
@[simp] theorem State.pushInput_call (s : State) (i : Input) :
    (s.pushInput i).call = s.call := rfl

end Sys2Proof.Machine
end

