-- ==== Sys2Proof/Laws/Ports.lean ====
section
/-! SUPPORT. What the port operations do to each port, and what does not depend on the ports or the history. -/

namespace Sys2Proof.Machine

/-- Reading port `j` of a modified port list. -/
theorem getD_modify (ps : List Port) (h j : Nat) (f : Port → Port) (d : Port) :
    (ps.modify h f).getD j d = if j = h ∧ h < ps.length then f (ps.getD j d) else ps.getD j d := by
  simp only [List.getD_eq_getElem?_getD, List.getElem?_modify]
  by_cases hj : h = j
  · subst hj
    by_cases hl : h < ps.length
    · simp [hl]
    · simp [hl]
  · have hj' : ¬ j = h := fun e => hj e.symm
    simp [hj, hj']

theorem State.hasPort_iff (s : State) (h : Nat) : s.hasPort h = true ↔ h < s.ports.length := by
  simp [State.hasPort]

/-- A port that does not exist reads as a reset port. -/
theorem State.port_of_not_hasPort {s : State} {h : Nat} (hn : ¬ h < s.ports.length) : s.port h = Port.reset := by
  simp [State.port, List.getD_eq_getElem?_getD, List.getElem?_eq_none (Nat.le_of_not_lt hn)]

/-- The port at `j` after an update of port `h`, existing or not. -/
theorem State.port_updPort (s : State) (h j : Nat) (f : Port → Port) :
    (s.updPort h f).port j = if j = h ∧ h < s.ports.length then f (s.port j) else s.port j :=
  getD_modify s.ports h j f Port.reset

/-- The port that an update of port `h` leaves at `h`. -/
theorem State.port_updPort_self {s : State} {h : Nat} (hh : h < s.ports.length) (f : Port → Port) :
    (s.updPort h f).port h = f (s.port h) := by
  rw [State.port_updPort, if_pos ⟨rfl, hh⟩]

/-- An update of port `h` leaves every other port. -/
theorem State.port_updPort_ne {s : State} {h j : Nat} (hj : j ≠ h) (f : Port → Port) :
    (s.updPort h f).port j = s.port j := by
  rw [State.port_updPort, if_neg fun e => hj e.1]

/-- Two updates of one port are one. -/
@[simp] theorem modify_modify (ps : List Port) (h : Nat) (f g : Port → Port) :
    (ps.modify h f).modify h g = ps.modify h fun q => g (f q) := by
  apply List.ext_getElem?
  intro j
  simp only [List.getElem?_modify]
  by_cases hj : h = j <;> simp [hj, Function.comp_def]

/-- The number of ports never changes under an update. -/
@[simp] theorem State.updPort_ports_length (s : State) (h : Nat) (f : Port → Port) :
    (s.updPort h f).ports.length = s.ports.length := by
  simp [State.updPort]

/-- A property of every port survives an update that keeps it. -/
theorem forall_modify {ps : List Port} {P : Port → Prop} {h : Nat} {f : Port → Port} (hp : ∀ p ∈ ps, P p)
    (hf : ∀ p ∈ ps, ps[h]? = some p → P (f p)) : ∀ p ∈ ps.modify h f, P p := by
  intro p hpm
  obtain ⟨j, hj⟩ := List.mem_iff_getElem?.mp hpm
  simp only [List.getElem?_modify] at hj
  by_cases e : h = j
  · subst e
    cases hq : ps[h]? with
    | none => simp [hq] at hj
    | some q =>
      simp [hq] at hj
      subst hj
      exact hf q (List.mem_of_getElem? hq) hq
  · simp [e] at hj
    exact hp p (List.mem_of_getElem? hj)

theorem State.port_eq_of_getElem? {s : State} {h : Nat} {p : Port} (e : s.ports[h]? = some p) : s.port h = p := by
  simp [State.port, List.getD_eq_getElem?_getD, e]

theorem State.port_mem {s : State} {h : Nat} (hh : h < s.ports.length) : s.port h ∈ s.ports := by
  simp [State.port, List.getD_eq_getElem?_getD, hh]

/-- A host that may take a step has a port and is not held off. -/
theorem State.hostMay_iff (s : State) (h : Nat) :
    s.hostMay h = true ↔ h < s.ports.length ∧ s.heldOff = false := by
  simp [State.hostMay, State.hasPort]

theorem State.atPhase_iff (s : State) (h : Nat) (p : Phase) :
    s.atPhase h p = true ↔ s.hostMay h = true ∧ (s.port h).phase = p := by
  simp [State.atPhase]

end Sys2Proof.Machine
end

