-- ==== Sys2Proof/Laws/Memory.lean ====
section
/-! SUPPORT. Host memory: a read after a write, every other byte, and the canonical form (20_memory.md R72, R73). -/

namespace Sys2Proof.Machine

/-- A byte that was just written reads back. -/
@[simp] theorem Memory.read_write_self (m : Memory) (a : Nat) (v : Byte) :
    Memory.read (Memory.write m a v) a = some v := by
  induction m with
  | nil => simp [Memory.write, Memory.read]
  | cons c m ih =>
    obtain ⟨k, b⟩ := c
    simp only [Memory.write]
    split
    · simp [Memory.read]
    · split
      · simp [Memory.read]
      · rename_i _ h2
        have : ¬ k = a := fun e => h2 e.symm
        simp [Memory.read, this, ih]

/-- A write leaves every other byte. -/
theorem Memory.read_write_ne (m : Memory) {a x : Nat} (v : Byte) (hx : x ≠ a) :
    Memory.read (Memory.write m a v) x = Memory.read m x := by
  induction m with
  | nil => simp [Memory.write, Memory.read, hx.symm]
  | cons c m ih =>
    obtain ⟨k, b⟩ := c
    simp only [Memory.write]
    split
    · simp [Memory.read, hx.symm]
    · split
      · rename_i _ h2
        subst h2
        simp [Memory.read, hx.symm]
      · simp only [Memory.read, ih]

/-- The addresses a written memory lists are the old ones and the written one. -/
theorem Memory.mem_write {m : Memory} {a : Nat} {v : Byte} {c : Host.Cell} (h : c ∈ Memory.write m a v) :
    c.1 = a ∨ c ∈ m := by
  induction m with
  | nil => simp [Memory.write] at h; simp [h]
  | cons d m ih =>
    obtain ⟨k, b⟩ := d
    simp only [Memory.write] at h
    split at h
    · rcases List.mem_cons.mp h with rfl | h
      · simp
      · exact .inr h
    · split at h
      · rcases List.mem_cons.mp h with rfl | h
        · simp
        · exact .inr (List.mem_cons_of_mem _ h)
      · rcases List.mem_cons.mp h with rfl | h
        · simp
        · rcases ih h with h | h
          · exact .inl h
          · exact .inr (List.mem_cons_of_mem _ h)

/-- A write keeps the canonical form. -/
theorem Memory.wf_write {m : Memory} {a : Nat} {v : Byte} (hm : Memory.wf m) (ha : a < 2 ^ 32) :
    Memory.wf (Memory.write m a v) := by
  obtain ⟨hs, hb⟩ := hm
  refine ⟨?_, fun c hc => ?_⟩
  · clear hb ha
    induction m with
    | nil => simp [Memory.write]
    | cons d m ih =>
      obtain ⟨k, b⟩ := d
      have hk := List.pairwise_cons.mp hs
      simp only [Memory.write]
      split
      · rename_i hak
        refine List.pairwise_cons.mpr ⟨fun c hc => ?_, hs⟩
        rcases List.mem_cons.mp hc with rfl | hc
        · exact hak
        · exact Nat.lt_trans hak (hk.1 c hc)
      · split
        · rename_i _ hak
          exact List.pairwise_cons.mpr ⟨fun c hc => hak ▸ hk.1 c hc, hk.2⟩
        · rename_i h1 h2
          refine List.pairwise_cons.mpr ⟨fun c hc => ?_, ih hk.2⟩
          rcases Memory.mem_write hc with h | h
          · simp only [h]; omega
          · exact hk.1 c h
  · rcases Memory.mem_write hc with h | h
    · omega
    · exact hb c h

/-- A byte once written stays written. -/
theorem Memory.isSome_read_write {m : Memory} {a x : Nat} {v : Byte} (h : (Memory.read m x).isSome = true) :
    (Memory.read (Memory.write m a v) x).isSome = true := by
  by_cases e : x = a
  · subst e; simp
  · rwa [Memory.read_write_ne m v e]

/-- What `MemWrite` can come to. -/
theorem State.memWrite_cases (s : State) (a : Word) (v : Byte) :
    (s.admitted a = true ∧ s.memWrite a v = .ok { s with hmem := Memory.write s.hmem a.toNat v }) ∨
      (s.admitted a = false ∧ s.memWrite a v = .stuck) := by
  cases h : s.admitted a <;> simp [State.memWrite, h]

/-- What `MemRead` can come to. -/
theorem State.memRead_cases (s : State) (a : Word) :
    (∃ b, s.admitted a = true ∧ Memory.read s.hmem a.toNat = some b ∧ s.memRead a = .ok b) ∨
      (s.admitted a = true ∧ Memory.read s.hmem a.toNat = none ∧ s.memRead a = .unwritten) ∨
      (s.admitted a = false ∧ s.memRead a = .stuck) := by
  cases h : s.admitted a
  · simp [State.memRead, h]
  · cases hr : Memory.read s.hmem a.toNat <;> simp [State.memRead, h, hr]

end Sys2Proof.Machine
end

