-- ==== Sys2Proof/Laws/Ring.lean ====
section
/-! SUPPORT. What PUT and GET can come to (40_ring_buffer.md R120, R121). -/

namespace Sys2Proof.Machine

/-- PUT either finds the ring full or moves one cell, the write index and the count. -/
theorem Ring.put_cases (r : Ring) (b : Byte) :
    (r.cnt = r.cap ∧ r.put b = none) ∨
      (r.cnt ≠ r.cap ∧ r.put b =
        some { mem := r.mem.set r.wr (some b), rd := r.rd, wr := (r.wr + 1) % r.cap, cnt := r.cnt + 1 }) := by
  by_cases h : r.cnt = r.cap <;> simp [Ring.put, h]

/-- GET finds the ring empty, a cell without a value, or a byte. -/
theorem Ring.get_cases (r : Ring) :
    (r.cnt = 0 ∧ r.get = .empty) ∨
      (r.cnt ≠ 0 ∧ r.mem[r.rd]?.getD none = none ∧ r.get = .noValue) ∨
      (∃ b, r.cnt ≠ 0 ∧ r.mem[r.rd]?.getD none = some b ∧
        r.get = .ok b { mem := r.mem, rd := (r.rd + 1) % r.cap, wr := r.wr, cnt := r.cnt - 1 }) := by
  by_cases h : r.cnt = 0
  · simp [Ring.get, h]
  · cases hb : r.mem[r.rd]?.getD none <;> simp [Ring.get, h, hb]

end Sys2Proof.Machine
end

