-- ==== Sys2Proof/Laws/SubOps.lean ====
section
/-! SUPPORT. What the shared sub-operations can come to: PUT and GET over the state (40_ring_buffer.md R120, R121),
PRODUCER_STEP (43_write_engine.md R210), the receive half of ISR_SERVICE and the atomic step. -/

namespace Sys2Proof.Machine

/-- When an atomic step answers a next state, it was taken or stuck. -/
theorem atomicStep_eq_next {s t : State} {x : Attempt State} (h : atomicStep s x = .next t) :
    x = .ok t ∨ (x = .stuck ∧ t = s) := by
  cases x <;> simp_all [atomicStep]

/-- An atomic step faults only by reading a cell without a value. -/
theorem atomicStep_eq_fault {s : State} {x : Attempt State} {r : Fault} (h : atomicStep s x = .fault r) :
    x = .unwritten := by
  cases x <;> simp_all [atomicStep]

/-- A sequence that comes to a value went through a value of its first part. -/
theorem Attempt.andThen_eq_ok {α β : Type} {x : Attempt α} {f : α → Attempt β} {b : β} (h : x.andThen f = .ok b) :
    ∃ a, x = .ok a ∧ f a = .ok b := by
  cases x <;> simp_all [Attempt.andThen]

@[simp] theorem Attempt.ok_andThen {α β : Type} (a : α) (f : α → Attempt β) : (Attempt.ok a).andThen f = f a := rfl

@[simp] theorem Attempt.stuck_andThen {α β : Type} (f : α → Attempt β) :
    (Attempt.stuck : Attempt α).andThen f = .stuck := rfl

@[simp] theorem Attempt.unwritten_andThen {α β : Type} (f : α → Attempt β) :
    (Attempt.unwritten : Attempt α).andThen f = .unwritten := rfl

@[simp] theorem atomicStep_ok (s t : State) : atomicStep s (.ok t) = .next t := rfl

@[simp] theorem atomicStep_stuck (s : State) : atomicStep s .stuck = .next s := rfl

@[simp] theorem atomicStep_unwritten (s : State) : atomicStep s .unwritten = .fault .modelUnwritten := rfl

/-- The peripheral after a write of its data register (44_interrupt_handler.md R243). -/
theorem Periph.writeData_eq (p : Periph) (v : Byte) :
    p.writeData v = if p.pen = true ∧ p.treq = true then { p with txwire := p.txwire ++ [v], treq := false } else p := by
  simp [Periph.writeData]

/-- Posting WSEM after the last byte changes WSEM alone. -/
theorem State.postIfWritten_eq (s : State) :
    s.postIfWritten = { s with wsem := s.wsem || decide (s.wr.count = 0#32) } := by
  by_cases h : s.wr.count = 0#32 <;> simp [State.postIfWritten, State.post, h]

/-- PRODUCER_STEP with a byte to send. -/
theorem State.produce_send {s : State} {v : Byte} (agent : Agent) (port : Option Nat) (hc : s.wr.count ≠ 0#32)
    (ha : s.admitted s.wr.nextAddr = true) (hv : Memory.read s.hmem s.wr.nextAddr.toNat = some v) :
    s.produce agent port = .ok { s with
      periph := s.periph.writeData v
      wr := { s.wr with count := s.wr.count - 1#32 }
      wsem := s.wsem || decide (s.wr.count = 1#32)
      history := s.history ++ [⟨0x82#8, agent, port, [], some (.sentByte v)⟩] } := by
  have e : (s.wr.count - 1#32 = 0#32) = (s.wr.count = 1#32) := by
    apply propext
    constructor <;> intro h <;> bv_omega
  simp [State.produce, State.memRead, hc, ha, hv, State.postIfWritten_eq, State.recordSub, e]

/-- PRODUCER_STEP with no byte to send. -/
theorem State.produce_noData {s : State} (agent : Agent) (port : Option Nat) (hc : s.wr.count = 0#32) :
    s.produce agent port = .ok { s with
      pwtimer := s.pwtimer.arm s.cfg.pwTimeout
      wsem := true
      history := s.history ++ [⟨0x82#8, agent, port, [], some .noData⟩] } := by
  simp [State.produce, hc, State.postIfWritten_eq, State.recordSub]

/-- Everything PRODUCER_STEP can come to. -/
theorem State.produce_cases (s : State) (agent : Agent) (port : Option Nat) :
    (s.wr.count = 0#32 ∧ s.produce agent port = .ok { s with
        pwtimer := s.pwtimer.arm s.cfg.pwTimeout
        wsem := true
        history := s.history ++ [⟨0x82#8, agent, port, [], some .noData⟩] }) ∨
      (∃ v, s.wr.count ≠ 0#32 ∧ s.admitted s.wr.nextAddr = true ∧
        Memory.read s.hmem s.wr.nextAddr.toNat = some v ∧ s.produce agent port = .ok { s with
          periph := s.periph.writeData v
          wr := { s.wr with count := s.wr.count - 1#32 }
          wsem := s.wsem || decide (s.wr.count = 1#32)
          history := s.history ++ [⟨0x82#8, agent, port, [], some (.sentByte v)⟩] }) ∨
      (s.wr.count ≠ 0#32 ∧ s.admitted s.wr.nextAddr = true ∧ Memory.read s.hmem s.wr.nextAddr.toNat = none ∧
        s.produce agent port = .unwritten) ∨
      (s.wr.count ≠ 0#32 ∧ s.admitted s.wr.nextAddr = false ∧ s.produce agent port = .stuck) := by
  by_cases hc : s.wr.count = 0#32
  · exact .inl ⟨hc, State.produce_noData agent port hc⟩
  · rcases State.memRead_cases s s.wr.nextAddr with ⟨v, ha, hv, _⟩ | ⟨ha, hv, e⟩ | ⟨ha, e⟩
    · exact .inr (.inl ⟨v, hc, ha, hv, State.produce_send agent port hc ha hv⟩)
    · exact .inr (.inr (.inl ⟨hc, ha, hv, by simp [State.produce, hc, e]⟩))
    · exact .inr (.inr (.inr ⟨hc, ha, by simp [State.produce, hc, e]⟩))

/-- What PRODUCER_STEP leaves when it completes. -/
theorem State.produce_eq_ok {s t : State} {agent : Agent} {port : Option Nat} (e : s.produce agent port = .ok t) :
    (s.wr.count = 0#32 ∧ t = { s with
        pwtimer := s.pwtimer.arm s.cfg.pwTimeout
        wsem := true
        history := s.history ++ [⟨0x82#8, agent, port, [], some .noData⟩] }) ∨
      (∃ v, s.wr.count ≠ 0#32 ∧ s.admitted s.wr.nextAddr = true ∧
        Memory.read s.hmem s.wr.nextAddr.toNat = some v ∧ t = { s with
          periph := s.periph.writeData v
          wr := { s.wr with count := s.wr.count - 1#32 }
          wsem := s.wsem || decide (s.wr.count = 1#32)
          history := s.history ++ [⟨0x82#8, agent, port, [], some (.sentByte v)⟩] }) := by
  rcases State.produce_cases s agent port with ⟨hc, g⟩ | ⟨v, hc, ha, hv, g⟩ | ⟨_, _, _, g⟩ | ⟨_, _, g⟩
  · injection g.symm.trans e with g
    exact .inl ⟨hc, g.symm⟩
  · injection g.symm.trans e with g
    exact .inr ⟨v, hc, ha, hv, g.symm⟩
  · exact absurd (g.symm.trans e) (by simp)
  · exact absurd (g.symm.trans e) (by simp)

/-- PUT over the state: it answers Ok and moves the ring, or the ring is full and nothing but the history moves. -/
theorem State.putByte_cases (s : State) (agent : Agent) (b : Byte) :
    (s.ring.cnt = s.ring.cap ∧ s.putByte agent b = (false, { s with
        history := s.history ++ [⟨0x80#8, agent, none, [b.setWidth 32], some .putFull⟩] })) ∨
      (s.ring.cnt ≠ s.ring.cap ∧ s.putByte agent b = (true, { s with
        ring := { mem := s.ring.mem.set s.ring.wr (some b), rd := s.ring.rd, wr := (s.ring.wr + 1) % s.ring.cap,
                  cnt := s.ring.cnt + 1 }
        history := s.history ++ [⟨0x80#8, agent, none, [b.setWidth 32], some .putOk⟩] })) := by
  rcases Ring.put_cases s.ring b with ⟨h, e⟩ | ⟨h, e⟩
  · exact .inl ⟨h, by simp [State.putByte, e, State.recordSub]⟩
  · exact .inr ⟨h, by simp [State.putByte, e, State.recordSub]⟩

/-- GET over the state. -/
theorem State.getByte_cases (s : State) (agent : Agent) (port : Option Nat) :
    (s.ring.cnt = 0 ∧ s.getByte agent port = .ok (none, { s with
        history := s.history ++ [⟨0x81#8, agent, port, [], some .gotEmpty⟩] })) ∨
      (s.ring.cnt ≠ 0 ∧ s.ring.mem[s.ring.rd]?.getD none = none ∧ s.getByte agent port = .unwritten) ∨
      (∃ b, s.ring.cnt ≠ 0 ∧ s.ring.mem[s.ring.rd]?.getD none = some b ∧ s.getByte agent port = .ok (some b, { s with
        ring := { mem := s.ring.mem, rd := (s.ring.rd + 1) % s.ring.cap, wr := s.ring.wr, cnt := s.ring.cnt - 1 }
        history := s.history ++ [⟨0x81#8, agent, port, [], some (.gotByte b)⟩] })) := by
  rcases Ring.get_cases s.ring with ⟨h, e⟩ | ⟨h, hb, e⟩ | ⟨b, h, hb, e⟩
  · exact .inl ⟨h, by simp [State.getByte, e, State.recordSub]⟩
  · exact .inr (.inl ⟨h, hb, by simp [State.getByte, e]⟩)
  · exact .inr (.inr ⟨b, h, hb, by simp [State.getByte, e, State.recordSub]⟩)

/-- Waking the reader changes WAKE_PENDING and RSEM alone. -/
theorem State.wakeReader_eq (s : State) :
    s.wakeReader = { s with rd := { s.rd with wakePending := false }, rsem := s.rsem || s.rd.wakePending } := by
  cases h : s.rd.wakePending
  · have : s.rd = { s.rd with wakePending := false } := by rw [← h]
    simp only [State.wakeReader, h, Bool.or_false, Bool.false_eq_true, if_false]
    rw [← this]
  · simp [State.wakeReader, State.post, h]

/-- Queueing a received byte: the ring takes it or DROPCNT counts it (44_interrupt_handler.md R246). -/
theorem State.receive_eq (s : State) (b : Byte) :
    s.receive b = { s with
      ring := if s.ring.cnt = s.ring.cap then s.ring
              else { mem := s.ring.mem.set s.ring.wr (some b), rd := s.ring.rd,
                     wr := (s.ring.wr + 1) % s.ring.cap, cnt := s.ring.cnt + 1 }
      dropcnt := if s.ring.cnt = s.ring.cap then s.dropcnt + 1#32 else s.dropcnt
      history := s.history ++ [⟨0x80#8, .isr, none, [b.setWidth 32],
        some (if s.ring.cnt = s.ring.cap then .putFull else .putOk)⟩] } := by
  rcases State.putByte_cases s .isr b with ⟨h, e⟩ | ⟨h, e⟩ <;> simp [State.receive, e, h]

/-- The receive half of ISR_SERVICE, given the byte: the ring takes it or DROPCNT counts it, and a reader that asked
is woken (44_interrupt_handler.md R246). -/
theorem State.serviceRx_eq {s : State} {b : Byte} (hb : s.periph.prxd = some b) :
    s.serviceRx = .ok { s with
      periph := { s.periph with rreq := false }
      ring := if s.ring.cnt = s.ring.cap then s.ring
              else { mem := s.ring.mem.set s.ring.wr (some b), rd := s.ring.rd,
                     wr := (s.ring.wr + 1) % s.ring.cap, cnt := s.ring.cnt + 1 }
      dropcnt := if s.ring.cnt = s.ring.cap then s.dropcnt + 1#32 else s.dropcnt
      rd := { s.rd with wakePending := false }
      rsem := s.rsem || s.rd.wakePending
      history := s.history ++ [⟨0x80#8, .isr, none, [b.setWidth 32],
        some (if s.ring.cnt = s.ring.cap then .putFull else .putOk)⟩] } := by
  simp only [State.serviceRx, hb, State.receive_eq, State.wakeReader_eq, Periph.readData]

/-- The receive half has no value to read when PRXD has none. -/
theorem State.serviceRx_none {s : State} (hb : s.periph.prxd = none) : s.serviceRx = .unwritten := by
  simp [State.serviceRx, hb]

end Sys2Proof.Machine
end

