-- ==== Sys2Proof/Laws/Steps.lean ====
section
/-! SUPPORT. What each instruction's meaning can come to, once per meaning: if it answers a next state, then that state
is one of these. Later proofs cite these lemmas and unfold no meaning. -/

namespace Sys2Proof.Machine

/-! ### Command bodies -/

/-- OPEN's body (45_lifecycle.md R271). -/
theorem State.openIssue_cases (s : State) (h : Nat) :
    (s.life.opened = true ∧ s.openIssue h = { s with
      ports := s.ports.modify h fun q => { q with result := 0#32, phase := .idle, busy := false }
      history := s.history ++ [⟨0x01#8, .host, some h,
        [(s.port h).arg0, (s.port h).arg1, (s.port h).arg2, (s.port h).saddr.setWidth 32], none⟩] }) ∨
    (s.life.opened = false ∧ s.openIssue h = { s with
      life := { opened := true, lstate := .opening }
      faults := if s.launch.boardReady then s.faults else s.faults ||| 0x4#32
      ports := s.ports.modify h fun q => { q with phase := .opBuild }
      history := s.history ++ [⟨0x01#8, .host, some h,
        [(s.port h).arg0, (s.port h).arg1, (s.port h).arg2, (s.port h).saddr.setWidth 32], none⟩] }) := by
  cases ho : s.life.opened
  · refine .inr ⟨rfl, ?_⟩
    cases hb : s.launch.boardReady <;>
      simp [State.openIssue, State.recordStep, ho, hb, State.goto, State.updPort, State.raiseFault,
        faultBootOrder, bitAt]
  · refine .inl ⟨rfl, ?_⟩
    simp [State.openIssue, State.recordStep, ho, State.finish, State.updPort, resZero]

/-- CLOSE's body (45_lifecycle.md R274). -/
theorem State.closeIssue_cases (s : State) (h : Nat) :
    (s.life.lstate ≠ .opened ∧ s.closeIssue h = { s with
      ports := s.ports.modify h fun q => { q with result := 0#32, phase := .idle, busy := false }
      history := s.history ++ [⟨0x02#8, .host, some h, [], none⟩] }) ∨
    (s.life.lstate = .opened ∧ s.closeIssue h = { s with
      faults := if s.inFlight then s.faults ||| 0x1#32 else s.faults
      ien := false
      periph := { s.periph with pen := false, rreq := false, treq := false, pris := 0x00#8, pim := 0x00#8 }
      rsem := false, wsem := false
      rtimer := Timer.reset, pwtimer := Timer.reset
      life := { opened := false, lstate := .closed }
      ports := s.ports.modify h fun q => { q with result := 0#32, phase := .idle, busy := false }
      history := s.history ++ [⟨0x02#8, .host, some h, [], none⟩] }) := by
  have hf : (s.recordStep 0x02#8 .host (some h) []).inFlight = s.inFlight := rfl
  by_cases ho : s.life.lstate = .opened
  · refine .inr ⟨ho, ?_⟩
    cases hb : s.inFlight
    · simp only [State.closeIssue, hf, hb, State.recordStep_life, ho, ne_eq, not_true_eq_false, if_false,
        Bool.false_eq_true]
      rfl
    · simp only [State.closeIssue, hf, hb, State.recordStep_life, ho, ne_eq, not_true_eq_false, if_false, if_true]
      rfl
  · refine .inl ⟨ho, ?_⟩
    simp [State.closeIssue, ho, State.recordStep, State.finish, State.updPort, resZero]

/-- READ's body (42_read_engine.md R171). -/
theorem State.readIssue_cases (s : State) (h : Nat) :
    (s.life.lstate ≠ .opened ∧ s.readIssue h = { s with
      ports := s.ports.modify h fun q => { q with result := 0xFFFFFFFE#32, phase := .idle, busy := false }
      history := s.history ++ [⟨0x03#8, .host, some h, [(s.port h).arg0, (s.port h).arg1], none⟩] }) ∨
    (s.life.lstate = .opened ∧ (s.port h).arg1 = 0#32 ∧ s.readIssue h = { s with
      ports := s.ports.modify h fun q => { q with result := 0#32, phase := .idle, busy := false }
      history := s.history ++ [⟨0x03#8, .host, some h, [(s.port h).arg0, (s.port h).arg1], none⟩] }) ∨
    (s.life.lstate = .opened ∧ (s.port h).arg1 ≠ 0#32 ∧ s.readIssue h = { s with
      faults := if s.rd.active then s.faults ||| 0x2#32 else s.faults
      rd := { buf := (s.port h).arg0, size := (s.port h).arg1, count := (s.port h).arg1, timedOut := false,
              wakePending := s.rd.wakePending, active := true }
      rsem := false
      rtimer := if s.cfg.readTimeout = 0#32 ∨ s.cfg.readTimeout = 0xFFFFFFFF#32 then s.rtimer
                else s.rtimer.arm s.cfg.readTimeout
      ports := s.ports.modify h fun q => { q with phase := .rdLoop }
      history := s.history ++ [⟨0x03#8, .host, some h, [(s.port h).arg0, (s.port h).arg1], none⟩] }) := by
  by_cases ho : s.life.lstate = .opened
  · by_cases hz : (s.port h).arg1 = 0#32
    · refine .inr (.inl ⟨ho, hz, ?_⟩)
      simp [State.readIssue, ho, hz, State.recordStep, State.finish, State.updPort, resZero]
    · refine .inr (.inr ⟨ho, hz, ?_⟩)
      cases hb : s.rd.active <;> by_cases h0 : s.cfg.readTimeout = 0#32 <;>
        by_cases h1 : s.cfg.readTimeout = 0xFFFFFFFF#32 <;>
        simp [State.readIssue, ho, hz, hb, h0, h1, State.recordStep, State.goto, State.updPort, State.raiseFault,
          State.take, faultReadOverlap, bitAt, armsReadTimer, waitForever]
  · refine .inl ⟨ho, ?_⟩
    simp [State.readIssue, ho, State.recordStep, State.finish, State.updPort, resClosed]

/-- WRITE's body (43_write_engine.md R201). -/
theorem State.writeIssue_cases (s : State) (h : Nat) :
    (∃ r, s.writeIssue h = { s with
        ports := s.ports.modify h fun q => { q with result := r, phase := .idle, busy := false }
        history := s.history ++ [⟨0x04#8, .host, some h, [(s.port h).arg0, (s.port h).arg1], none⟩] } ∧
      ((s.life.lstate ≠ .opened ∧ r = 0xFFFFFFFE#32) ∨
        (s.life.lstate = .opened ∧ (s.port h).arg1 = 0#32 ∧ r = 0#32) ∨
        (s.life.lstate = .opened ∧ (s.port h).arg1 ≠ 0#32 ∧ s.wr.count ≠ 0#32 ∧ r = 0xFFFFFFFF#32))) ∨
    (s.life.lstate = .opened ∧ (s.port h).arg1 ≠ 0#32 ∧ s.wr.count = 0#32 ∧ s.writeIssue h = { s with
      wr := { buf := (s.port h).arg0, size := (s.port h).arg1, count := (s.port h).arg1 }
      ports := s.ports.modify h fun q => { q with phase := .wrPendCheck }
      history := s.history ++ [⟨0x04#8, .host, some h, [(s.port h).arg0, (s.port h).arg1], none⟩] }) := by
  by_cases ho : s.life.lstate = .opened
  · by_cases hz : (s.port h).arg1 = 0#32
    · refine .inl ⟨0#32, ?_, .inr (.inl ⟨ho, hz, rfl⟩)⟩
      simp [State.writeIssue, ho, hz, State.recordStep, State.finish, State.updPort, resZero]
    · by_cases hc : s.wr.count = 0#32
      · refine .inr ⟨ho, hz, hc, ?_⟩
        simp [State.writeIssue, ho, hz, hc, State.recordStep, State.goto, State.updPort]
      · refine .inl ⟨0xFFFFFFFF#32, ?_, .inr (.inr ⟨ho, hz, hc, rfl⟩)⟩
        simp [State.writeIssue, ho, hz, hc, State.recordStep, State.finish, State.updPort, resBusy]
  · refine .inl ⟨0xFFFFFFFE#32, ?_, .inl ⟨ho, rfl⟩⟩
    simp [State.writeIssue, ho, State.recordStep, State.finish, State.updPort, resClosed]

/-- A host's write of a command word (45_lifecycle.md R289): no step, an overrun, an illegal word, or the latch and
the command's own body. -/
theorem State.hostCmd_cases (s : State) (h : Nat) (w : Word) :
    (s.hostMay h = false ∧ s.hostCmd h w = s) ∨
    (s.hostMay h = true ∧ (s.port h).busy = true ∧ s.hostCmd h w = s.overrun h) ∨
    (s.hostMay h = true ∧ (s.port h).busy = false ∧ (∃ e, decodeCommand w (s.port h).arg1 = .error e) ∧
      s.hostCmd h w = { s with
        ports := s.ports.modify h fun q => { q with lcmd := w, ovr := false, result := 0xFFFFFFFD#32 }
        history := s.history ++ [⟨0x0F#8, .host, some h, [w], none⟩] }) ∨
    (s.hostMay h = true ∧ (s.port h).busy = false ∧ ∃ k, decodeCommand w (s.port h).arg1 = .ok k ∧
      s.hostCmd h w = { s with
        ports := s.ports.modify h fun q => { q with lcmd := w, ovr := false, busy := true } }.issueBody h k) := by
  cases hm : s.hostMay h
  · exact .inl ⟨rfl, by simp [State.hostCmd, hm]⟩
  · have hl := ((State.hostMay_iff s h).mp hm).1
    cases hb : (s.port h).busy
    · have ha : ((s.latchCmd h w).port h).arg1 = (s.port h).arg1 := by
        simp only [State.latchCmd, State.port_updPort_self hl]
      cases hd : decodeCommand w (s.port h).arg1 with
      | error e =>
        refine .inr (.inr (.inl ⟨rfl, rfl, ⟨e, rfl⟩, ?_⟩))
        simp only [State.hostCmd, hm, if_true, State.cmdWrite, hb, Bool.false_eq_true, if_false, ha, hd]
        simp [State.latchCmd, State.recordStep, State.updPort, resIllegal]
      | ok k =>
        refine .inr (.inr (.inr ⟨rfl, rfl, k, rfl, ?_⟩))
        simp only [State.hostCmd, hm, if_true, State.cmdWrite, hb, Bool.false_eq_true, if_false, ha, hd]
        simp [State.latchCmd, State.setBusy, State.updPort]
    · exact .inr (.inl ⟨rfl, rfl, by simp [State.hostCmd, hm, State.cmdWrite, hb]⟩)

/-! ### Sequencer steps -/

/-- OP_BUILD (45_lifecycle.md R272). -/
theorem execOpBuild_cases {s t : State} {h : Nat} (e : execOpBuild h s = .next t) :
    t = s ∨ (s.hostMay h = true ∧ (s.port h).phase = .opBuild ∧ t = { s with
      ring := { s.ring with rd := 0, wr := 0, cnt := 0 }
      ien := true, rsem := false, wsem := false, rtimer := Timer.reset, pwtimer := Timer.reset
      cfg := { readTimeout := (s.port h).arg0, writeTimeout := (s.port h).arg1, pwTimeout := (s.port h).arg2,
               slaveAddr := (s.port h).saddr }
      rd := ReadXfer.reset, wr := WriteXfer.reset, dropcnt := 0#32
      periph := { s.periph with psaddr := (s.port h).saddr, rreq := false, treq := false, pris := 0x00#8,
                                pim := 0x01#8, pen := true }
      life := { s.life with lstate := .opened }
      ports := s.ports.modify h fun q => { q with result := 1#32, phase := .idle, busy := false }
      history := s.history ++ [⟨0x11#8, .host, some h, [], none⟩] }) := by
  by_cases ha : s.atPhase h .opBuild = true
  · simp only [execOpBuild, ha, if_true, Host.Outcome.next.injEq] at e
    obtain ⟨hm, hp⟩ := (State.atPhase_iff s h _).mp ha
    exact .inr ⟨hm, hp, by rw [← e]; rfl⟩
  · simp only [execOpBuild, ha] at e
    exact .inl (Host.Outcome.next.inj e).symm

/-- RD_LOOP (42_read_engine.md R172): nothing left; ring empty; one byte stored. -/
theorem execRdLoop_cases {s t : State} {h : Nat} (e : execRdLoop h s = .next t) :
    t = s ∨ (s.hostMay h = true ∧ (s.port h).phase = .rdLoop ∧
      ((s.rd.count = 0#32 ∧ t = { s with
          ports := s.ports.modify h fun q => { q with phase := .rdExit }
          history := s.history ++ [⟨0x22#8, .host, some h, [], none⟩] }) ∨
        (s.rd.count ≠ 0#32 ∧ s.ring.cnt = 0 ∧ t = { s with
          rd := { s.rd with wakePending := true }
          ports := s.ports.modify h fun q => { q with phase := if s.cfg.readTimeout = 0#32 then .rdExit else .rdWait }
          history := s.history ++ [⟨0x22#8, .host, some h, [], none⟩,
            ⟨0x81#8, .host, some h, [], some .gotEmpty⟩] }) ∨
        (∃ b, s.rd.count ≠ 0#32 ∧ s.ring.cnt ≠ 0 ∧ s.ring.mem[s.ring.rd]?.getD none = some b ∧
          s.admitted s.rd.nextAddr = true ∧ t = { s with
            hmem := Memory.write s.hmem s.rd.nextAddr.toNat b
            ring := { s.ring with rd := (s.ring.rd + 1) % s.ring.cap, cnt := s.ring.cnt - 1 }
            rd := { s.rd with count := s.rd.count - 1#32 }
            history := s.history ++ [⟨0x22#8, .host, some h, [], none⟩,
              ⟨0x81#8, .host, some h, [], some (.gotByte b)⟩] }))) := by
  by_cases ha : s.atPhase h .rdLoop = true
  · simp only [execRdLoop, ha, if_true] at e
    obtain ⟨hm, hp⟩ := (State.atPhase_iff s h _).mp ha
    rcases atomicStep_eq_next e with e | ⟨_, e⟩
    · refine .inr ⟨hm, hp, ?_⟩
      by_cases hc : s.rd.count = 0#32
      · simp only [State.rdLoop, State.recordStep_rd, hc, if_true, Attempt.ok.injEq] at e
        exact .inl ⟨hc, e.symm⟩
      · simp only [State.rdLoop, State.recordStep_rd, hc, if_false] at e
        rcases State.getByte_cases (s.recordStep 0x22#8 .host (some h) []) .host (some h) with
          ⟨h0, g⟩ | ⟨h0, hb, g⟩ | ⟨b, h0, hb, g⟩
        · rw [g] at e
          simp only [Attempt.ok_andThen, Attempt.ok.injEq] at e
          refine .inr (.inl ⟨hc, h0, ?_⟩)
          rw [← e]
          simp [State.goto, State.updPort, State.recordStep]
          rfl
        · rw [g] at e
          exact absurd e (by simp)
        · rw [g] at e
          simp only [Attempt.ok_andThen] at e
          obtain ⟨u, eu, e⟩ := Attempt.andThen_eq_ok e
          refine .inr (.inr ⟨b, hc, h0, hb, ?_⟩)
          rcases State.memWrite_cases _ _ b with ⟨hw, w⟩ | ⟨hw, w⟩
          · rw [w] at eu
            refine ⟨hw, ?_⟩
            injection eu with eu
            injection e with e
            rw [← e, ← eu]
            simp [State.recordStep]
          · rw [w] at eu
            exact absurd eu (by simp)
    · exact .inl e
  · simp only [execRdLoop, ha] at e
    exact .inl (Host.Outcome.next.inj e).symm

/-- RD_WAIT wake (42_read_engine.md R174). -/
theorem execRdWaitWake_cases {s t : State} {h : Nat} (e : execRdWaitWake h s = .next t) :
    t = s ∨ (s.hostMay h = true ∧ (s.port h).phase = .rdWait ∧ s.rsem = true ∧ t = { s with
      rsem := false
      ports := s.ports.modify h fun q => { q with phase := .rdWoken }
      history := s.history ++ [⟨0x23#8, .host, some h, [], none⟩] }) := by
  by_cases ha : (s.atPhase h .rdWait && s.rsem) = true
  · simp only [execRdWaitWake, ha, if_true, Host.Outcome.next.injEq] at e
    simp only [Bool.and_eq_true, State.atPhase_iff] at ha
    exact .inr ⟨ha.1.1, ha.1.2, ha.2, by rw [← e]; rfl⟩
  · simp only [execRdWaitWake, ha] at e
    exact .inl (Host.Outcome.next.inj e).symm

/-- RD_WOKEN (42_read_engine.md R175). -/
theorem execRdWoken_cases {s t : State} {h : Nat} (e : execRdWoken h s = .next t) :
    t = s ∨ (s.hostMay h = true ∧ (s.port h).phase = .rdWoken ∧ t = { s with
      rd := { s.rd with wakePending := !s.rd.timedOut && s.rd.wakePending }
      ports := s.ports.modify h fun q => { q with phase := if s.rd.timedOut then .rdExit else .rdLoop }
      history := s.history ++ [⟨0x24#8, .host, some h, [], none⟩] }) := by
  by_cases ha : s.atPhase h .rdWoken = true
  · obtain ⟨hm, hp⟩ := (State.atPhase_iff s h _).mp ha
    refine .inr ⟨hm, hp, ?_⟩
    cases ht : s.rd.timedOut
    · simp only [execRdWoken, ha, if_true, State.recordStep_rd, ht, Bool.false_eq_true, if_false,
        Host.Outcome.next.injEq] at e
      rw [← e]
      rfl
    · simp only [execRdWoken, ha, if_true, State.recordStep_rd, ht, Host.Outcome.next.injEq] at e
      rw [← e]
      simp [State.goto, State.updPort, State.recordStep, ht]
  · simp only [execRdWoken, ha] at e
    exact .inl (Host.Outcome.next.inj e).symm

/-- RD_EXIT (42_read_engine.md R176). -/
theorem execRdExit_cases {s t : State} {h : Nat} (e : execRdExit h s = .next t) :
    t = s ∨ (s.hostMay h = true ∧ (s.port h).phase = .rdExit ∧ t = { s with
      rtimer := Timer.reset, rd := { s.rd with active := false }
      ports := s.ports.modify h fun q =>
        { q with result := s.rd.size - s.rd.count, phase := .idle, busy := false }
      history := s.history ++ [⟨0x25#8, .host, some h, [], none⟩] }) := by
  by_cases ha : s.atPhase h .rdExit = true
  · simp only [execRdExit, ha, if_true, Host.Outcome.next.injEq] at e
    obtain ⟨hm, hp⟩ := (State.atPhase_iff s h _).mp ha
    exact .inr ⟨hm, hp, by rw [← e]; rfl⟩
  · simp only [execRdExit, ha] at e
    exact .inl (Host.Outcome.next.inj e).symm

/-- WR_PEND_CHECK (43_write_engine.md R202): no request; a byte sent; no byte left. -/
theorem execWrPendCheck_cases {s t : State} {h : Nat} (e : execWrPendCheck h s = .next t) :
    t = s ∨ (s.hostMay h = true ∧ (s.port h).phase = .wrPendCheck ∧
      (((s.periph.pen && s.periph.treq) = false ∧ t = { s with
          ports := s.ports.modify h fun q => { q with phase := .wrDrain }
          history := s.history ++ [⟨0x36#8, .host, some h, [], none⟩] }) ∨
        (s.periph.pen = true ∧ s.periph.treq = true ∧ s.wr.count = 0#32 ∧ t = { s with
          pwtimer := s.pwtimer.arm s.cfg.pwTimeout
          wsem := true
          ports := s.ports.modify h fun q => { q with phase := .wrDrain }
          history := s.history ++ [⟨0x36#8, .host, some h, [], none⟩,
            ⟨0x82#8, .host, some h, [], some .noData⟩] }) ∨
        (∃ v, s.periph.pen = true ∧ s.periph.treq = true ∧ s.wr.count ≠ 0#32 ∧
          s.admitted s.wr.nextAddr = true ∧ Memory.read s.hmem s.wr.nextAddr.toNat = some v ∧ t = { s with
            pwtimer := Timer.reset
            periph := { s.periph with txwire := s.periph.txwire ++ [v], treq := false }
            wr := { s.wr with count := s.wr.count - 1#32 }
            wsem := s.wsem || decide (s.wr.count = 1#32)
            ports := s.ports.modify h fun q => { q with phase := .wrDrain }
            history := s.history ++ [⟨0x36#8, .host, some h, [], none⟩,
              ⟨0x82#8, .host, some h, [], some (.sentByte v)⟩] }))) := by
  by_cases ha : s.atPhase h .wrPendCheck = true
  · simp only [execWrPendCheck, ha, if_true] at e
    obtain ⟨hm, hp⟩ := (State.atPhase_iff s h _).mp ha
    rcases atomicStep_eq_next e with e | ⟨_, e⟩
    · refine .inr ⟨hm, hp, ?_⟩
      cases hq : (s.periph.pen && s.periph.treq)
      · simp only [State.wrPendCheck, State.recordStep_periph, hq, Bool.false_eq_true, if_false,
          Attempt.ok.injEq] at e
        exact .inl ⟨rfl, e.symm⟩
      · simp only [State.wrPendCheck, State.recordStep_periph, hq, if_true] at e
        obtain ⟨u, eu, e⟩ := Attempt.andThen_eq_ok e
        simp only [Bool.and_eq_true] at hq
        injection e with e
        rcases State.produce_cases { (s.recordStep 0x36#8 .host (some h) []) with pwtimer := s.pwtimer.stop }
            .host (some h) with ⟨hc, p⟩ | ⟨v, hc, hw, hv, p⟩ | ⟨_, _, _, p⟩ | ⟨_, _, p⟩
        · refine .inr (.inl ⟨hq.1, hq.2, hc, ?_⟩)
          injection p.symm.trans eu with eu
          rw [← e, ← eu]
          simp [State.goto, State.updPort, State.recordStep, Timer.arm]
          rfl
        · refine .inr (.inr ⟨v, hq.1, hq.2, hc, hw, hv, ?_⟩)
          injection p.symm.trans eu with eu
          rw [← e, ← eu]
          simp [State.goto, State.updPort, State.recordStep, Timer.stop, Timer.reset, Periph.writeData, hq]
          rfl
        · exact absurd (p.symm.trans eu) (by simp)
        · exact absurd (p.symm.trans eu) (by simp)
    · exact .inl e
  · simp only [execWrPendCheck, ha] at e
    exact .inl (Host.Outcome.next.inj e).symm

/-- WR_DRAIN (43_write_engine.md R203). -/
theorem execWrDrain_cases {s t : State} {h : Nat} (e : execWrDrain h s = .next t) :
    t = s ∨ (s.hostMay h = true ∧ (s.port h).phase = .wrDrain ∧ t = { s with
      wsem := false
      ports := s.ports.modify h fun q => { q with phase := .wrCheck }
      history := s.history ++ [⟨0x37#8, .host, some h, [], none⟩] }) := by
  by_cases ha : s.atPhase h .wrDrain = true
  · simp only [execWrDrain, ha, if_true, Host.Outcome.next.injEq] at e
    obtain ⟨hm, hp⟩ := (State.atPhase_iff s h _).mp ha
    exact .inr ⟨hm, hp, by rw [← e]; rfl⟩
  · simp only [execWrDrain, ha] at e
    exact .inl (Host.Outcome.next.inj e).symm

/-- WR_CHECK (43_write_engine.md R204). -/
theorem execWrCheck_cases {s t : State} {h : Nat} (e : execWrCheck h s = .next t) :
    t = s ∨ (s.hostMay h = true ∧ (s.port h).phase = .wrCheck ∧
      ((s.wr.count = 0#32 ∧ t = { s with
          ports := s.ports.modify h fun q => { q with phase := .wrExit }
          history := s.history ++ [⟨0x38#8, .host, some h, [], none⟩] }) ∨
        (s.wr.count ≠ 0#32 ∧ s.cfg.writeTimeout = 0#32 ∧ t = { s with
          wsem := false
          ports := s.ports.modify h fun q => { q with phase := .wrExit }
          history := s.history ++ [⟨0x38#8, .host, some h, [], none⟩] }) ∨
        (s.wr.count ≠ 0#32 ∧ s.cfg.writeTimeout ≠ 0#32 ∧ t = { s with
          ports := s.ports.modify h fun q =>
            { q with wwaitInf := decide (s.cfg.writeTimeout = waitForever)
                     wwaitRem := if s.cfg.writeTimeout = waitForever then 0#32 else s.cfg.writeTimeout
                     phase := .wrWait }
          history := s.history ++ [⟨0x38#8, .host, some h, [], none⟩] }))) := by
  by_cases ha : s.atPhase h .wrCheck = true
  · simp only [execWrCheck, ha, if_true, Host.Outcome.next.injEq] at e
    obtain ⟨hm, hp⟩ := (State.atPhase_iff s h _).mp ha
    refine .inr ⟨hm, hp, ?_⟩
    by_cases hc : s.wr.count = 0#32
    · simp only [State.wrCheck, State.recordStep_wr, hc, if_true] at e
      exact .inl ⟨hc, e.symm⟩
    · by_cases hz : s.cfg.writeTimeout = 0#32
      · simp only [State.wrCheck, State.recordStep_wr, State.recordStep_cfg, hc, if_false, hz, if_true] at e
        exact .inr (.inl ⟨hc, hz, e.symm⟩)
      · simp only [State.wrCheck, State.recordStep_wr, State.recordStep_cfg, hc, if_false, hz] at e
        exact .inr (.inr ⟨hc, hz, e.symm⟩)
  · simp only [execWrCheck, ha] at e
    exact .inl (Host.Outcome.next.inj e).symm

/-- WR_WAIT wake (43_write_engine.md R205). -/
theorem execWrWaitWake_cases {s t : State} {h : Nat} (e : execWrWaitWake h s = .next t) :
    t = s ∨ (s.hostMay h = true ∧ (s.port h).phase = .wrWait ∧ s.wsem = true ∧ t = { s with
      wsem := false
      ports := s.ports.modify h fun q => { q with phase := .wrExit }
      history := s.history ++ [⟨0x39#8, .host, some h, [], none⟩] }) := by
  by_cases ha : (s.atPhase h .wrWait && s.wsem) = true
  · simp only [execWrWaitWake, ha, if_true, Host.Outcome.next.injEq] at e
    simp only [Bool.and_eq_true, State.atPhase_iff] at ha
    exact .inr ⟨ha.1.1, ha.1.2, ha.2, by rw [← e]; rfl⟩
  · simp only [execWrWaitWake, ha] at e
    exact .inl (Host.Outcome.next.inj e).symm

/-- WR_WAIT timeout (43_write_engine.md R206). -/
theorem execWrWaitTimeout_cases {s t : State} {h : Nat} (e : execWrWaitTimeout h s = .next t) :
    t = s ∨ (s.hostMay h = true ∧ (s.port h).phase = .wrWait ∧ (s.port h).waitExpired = true ∧ t = { s with
      ports := s.ports.modify h fun q => { q with phase := .wrExit }
      history := s.history ++ [⟨0x3A#8, .host, some h, [], none⟩] }) := by
  by_cases ha : (s.atPhase h .wrWait && (s.port h).waitExpired) = true
  · simp only [execWrWaitTimeout, ha, if_true, Host.Outcome.next.injEq] at e
    simp only [Bool.and_eq_true, State.atPhase_iff] at ha
    exact .inr ⟨ha.1.1, ha.1.2, ha.2, by rw [← e]; rfl⟩
  · simp only [execWrWaitTimeout, ha] at e
    exact .inl (Host.Outcome.next.inj e).symm

/-- WR_EXIT (43_write_engine.md R207). -/
theorem execWrExit_cases {s t : State} {h : Nat} (e : execWrExit h s = .next t) :
    t = s ∨ (s.hostMay h = true ∧ (s.port h).phase = .wrExit ∧ t = { s with
      wr := { s.wr with count := 0#32 }
      ports := s.ports.modify h fun q =>
        { q with wwaitRem := 0#32, wwaitInf := false, result := s.wr.size - s.wr.count, phase := .idle,
                 busy := false }
      history := s.history ++ [⟨0x3B#8, .host, some h, [], none⟩] }) := by
  by_cases ha : s.atPhase h .wrExit = true
  · simp only [execWrExit, ha, if_true, Host.Outcome.next.injEq] at e
    obtain ⟨hm, hp⟩ := (State.atPhase_iff s h _).mp ha
    refine .inr ⟨hm, hp, ?_⟩
    rw [← e]
    simp [State.wrExit, State.finish, State.updPort, State.recordStep]
  · simp only [execWrExit, ha] at e
    exact .inl (Host.Outcome.next.inj e).symm

/-! ### The interrupt handler -/

/-- What the receive half of ISR_SERVICE leaves of a state (44_interrupt_handler.md R246). -/
def State.afterRx (s : State) (b : Byte) : State :=
  { s with
    periph := { s.periph with rreq := false }
    ring := if s.ring.cnt = s.ring.cap then s.ring
            else { mem := s.ring.mem.set s.ring.wr (some b), rd := s.ring.rd,
                   wr := (s.ring.wr + 1) % s.ring.cap, cnt := s.ring.cnt + 1 }
    dropcnt := if s.ring.cnt = s.ring.cap then s.dropcnt + 1#32 else s.dropcnt
    rd := { s.rd with wakePending := false }
    rsem := s.rsem || s.rd.wakePending
    history := s.history ++ [⟨0x80#8, .isr, none, [b.setWidth 32],
      some (if s.ring.cnt = s.ring.cap then .putFull else .putOk)⟩] }

/-- What the first line of ISR_SERVICE leaves: the snapshot bits cleared, the step recorded. -/
def State.afterSnapshot (s : State) : State :=
  { s with
    periph := { s.periph with pris := s.periph.pris &&& ~~~ s.periph.pmis }
    history := s.history ++ [⟨0x40#8, .isr, none, [], none⟩] }

/-! ### The fields after the snapshot and after the receive half -/

@[simp] theorem State.afterSnapshot_launch (s : State) : s.afterSnapshot.launch = s.launch := rfl
@[simp] theorem State.afterSnapshot_ports (s : State) : s.afterSnapshot.ports = s.ports := rfl
@[simp] theorem State.afterSnapshot_life (s : State) : s.afterSnapshot.life = s.life := rfl
@[simp] theorem State.afterSnapshot_cfg (s : State) : s.afterSnapshot.cfg = s.cfg := rfl
@[simp] theorem State.afterSnapshot_ring (s : State) : s.afterSnapshot.ring = s.ring := rfl
@[simp] theorem State.afterSnapshot_rd (s : State) : s.afterSnapshot.rd = s.rd := rfl
@[simp] theorem State.afterSnapshot_wr (s : State) : s.afterSnapshot.wr = s.wr := rfl
@[simp] theorem State.afterSnapshot_rsem (s : State) : s.afterSnapshot.rsem = s.rsem := rfl
@[simp] theorem State.afterSnapshot_wsem (s : State) : s.afterSnapshot.wsem = s.wsem := rfl
@[simp] theorem State.afterSnapshot_rtimer (s : State) : s.afterSnapshot.rtimer = s.rtimer := rfl
@[simp] theorem State.afterSnapshot_pwtimer (s : State) : s.afterSnapshot.pwtimer = s.pwtimer := rfl
@[simp] theorem State.afterSnapshot_ien (s : State) : s.afterSnapshot.ien = s.ien := rfl
@[simp] theorem State.afterSnapshot_dropcnt (s : State) : s.afterSnapshot.dropcnt = s.dropcnt := rfl
@[simp] theorem State.afterSnapshot_faults (s : State) : s.afterSnapshot.faults = s.faults := rfl
@[simp] theorem State.afterSnapshot_hmem (s : State) : s.afterSnapshot.hmem = s.hmem := rfl
@[simp] theorem State.afterSnapshot_sched (s : State) : s.afterSnapshot.sched = s.sched := rfl
@[simp] theorem State.afterSnapshot_busData (s : State) : s.afterSnapshot.busData = s.busData := rfl
@[simp] theorem State.afterSnapshot_periph (s : State) :
    s.afterSnapshot.periph = { s.periph with pris := s.periph.pris &&& ~~~ s.periph.pmis } := rfl
@[simp] theorem State.afterSnapshot_history (s : State) :
    s.afterSnapshot.history = s.history ++ [⟨0x40#8, .isr, none, [], none⟩] := rfl
@[simp] theorem State.afterSnapshot_admitted (s : State) (a : Word) :
    s.afterSnapshot.admitted a = s.admitted a := rfl
@[simp] theorem State.afterRx_launch (s : State) (b : Byte) : (s.afterRx b).launch = s.launch := rfl
@[simp] theorem State.afterRx_ports (s : State) (b : Byte) : (s.afterRx b).ports = s.ports := rfl
@[simp] theorem State.afterRx_life (s : State) (b : Byte) : (s.afterRx b).life = s.life := rfl
@[simp] theorem State.afterRx_cfg (s : State) (b : Byte) : (s.afterRx b).cfg = s.cfg := rfl
@[simp] theorem State.afterRx_wr (s : State) (b : Byte) : (s.afterRx b).wr = s.wr := rfl
@[simp] theorem State.afterRx_wsem (s : State) (b : Byte) : (s.afterRx b).wsem = s.wsem := rfl
@[simp] theorem State.afterRx_rtimer (s : State) (b : Byte) : (s.afterRx b).rtimer = s.rtimer := rfl
@[simp] theorem State.afterRx_pwtimer (s : State) (b : Byte) : (s.afterRx b).pwtimer = s.pwtimer := rfl
@[simp] theorem State.afterRx_ien (s : State) (b : Byte) : (s.afterRx b).ien = s.ien := rfl
@[simp] theorem State.afterRx_faults (s : State) (b : Byte) : (s.afterRx b).faults = s.faults := rfl
@[simp] theorem State.afterRx_hmem (s : State) (b : Byte) : (s.afterRx b).hmem = s.hmem := rfl
@[simp] theorem State.afterRx_sched (s : State) (b : Byte) : (s.afterRx b).sched = s.sched := rfl
@[simp] theorem State.afterRx_busData (s : State) (b : Byte) : (s.afterRx b).busData = s.busData := rfl
@[simp] theorem State.afterRx_periph (s : State) (b : Byte) :
    (s.afterRx b).periph = { s.periph with rreq := false } := rfl
@[simp] theorem State.afterRx_rd (s : State) (b : Byte) :
    (s.afterRx b).rd = { s.rd with wakePending := false } := rfl
@[simp] theorem State.afterRx_rsem (s : State) (b : Byte) :
    (s.afterRx b).rsem = (s.rsem || s.rd.wakePending) := rfl
@[simp] theorem State.afterRx_admitted (s : State) (b : Byte) (a : Word) :
    (s.afterRx b).admitted a = s.admitted a := rfl

/-- The receive half keeps the ring's capacity and read index (40_ring_buffer.md R120). -/
@[simp] theorem State.afterRx_ring_length (s : State) (b : Byte) :
    (s.afterRx b).ring.mem.length = s.ring.mem.length := by
  simp only [State.afterRx]
  split <;> simp

@[simp] theorem State.afterRx_ring_rd (s : State) (b : Byte) : (s.afterRx b).ring.rd = s.ring.rd := by
  simp only [State.afterRx]
  split <;> rfl

/-- ISR_SERVICE (44_interrupt_handler.md R246): the snapshot, then the receive half when RREQ is set, then
PRODUCER_STEP when TREQ is set. -/
theorem execIsrService_cases {s t : State} (e : execIsrService s = .next t) :
    t = s ∨ (s.isrEnabled = true ∧ ∃ u,
      ((s.periph.rreq = false ∧ u = s.afterSnapshot) ∨
        (∃ b, s.periph.rreq = true ∧ s.periph.prxd = some b ∧ u = s.afterSnapshot.afterRx b)) ∧
      ((s.periph.treq = false ∧ t = u) ∨
        (s.periph.treq = true ∧ u.produce .isr none = .ok t))) := by
  by_cases ha : s.isrEnabled = true
  · simp only [execIsrService, ha, if_true] at e
    rcases atomicStep_eq_next e with e | ⟨_, e⟩
    · refine .inr ⟨ha, ?_⟩
      obtain ⟨u, eu, e⟩ := Attempt.andThen_eq_ok e
      refine ⟨u, ?_, ?_⟩
      · cases hr : s.periph.rreq
        · simp only [hr, Bool.false_eq_true, if_false, Attempt.ok.injEq] at eu
          exact .inl ⟨rfl, by rw [← eu]; simp [State.afterSnapshot, State.recordStep, hr]⟩
        · simp only [hr, if_true] at eu
          cases hp : s.periph.prxd with
          | none => simp [State.serviceRx, hp] at eu
          | some b =>
            rw [State.serviceRx_eq (b := b) (by simpa using hp)] at eu
            injection eu with eu
            exact .inr ⟨b, rfl, rfl, by rw [← eu, State.afterSnapshot, State.afterRx]; rfl⟩
      · cases ht : s.periph.treq
        · simp only [ht, Bool.false_eq_true, if_false, Attempt.ok.injEq] at e
          exact .inl ⟨rfl, e.symm⟩
        · simp only [ht, if_true] at e
          exact .inr ⟨rfl, e⟩
    · exact .inl e
  · simp only [execIsrService, ha] at e
    exact .inl (Host.Outcome.next.inj e).symm

/-! ### Timers, the tick, the peripheral's events -/

/-- TICK (41_timeout_timer.md R142). -/
theorem execTick_cases {s t : State} (e : execTick s = .next t) :
    t = s ∨ (s.heldOff = false ∧ t = { s with
      rtimer := s.rtimer.tick, pwtimer := s.pwtimer.tick, ports := s.ports.map Port.tick
      history := s.history ++ [⟨0x60#8, .tickSource, none, [], none⟩] }) := by
  by_cases ha : s.heldOff = true
  · simp only [execTick, ha, if_true] at e
    exact .inl (Host.Outcome.next.inj e).symm
  · simp only [execTick, ha] at e
    exact .inr ⟨by simpa using ha, (Host.Outcome.next.inj e).symm⟩

/-- RT_EXPIRE (41_timeout_timer.md R145). -/
theorem execRtExpire_cases {s t : State} (e : execRtExpire s = .next t) :
    t = s ∨ (s.rtimer.exp = true ∧ s.heldOff = false ∧ t = { s with
      rtimer := { s.rtimer with exp := false }
      rd := { s.rd with timedOut := true }
      rsem := true
      history := s.history ++ [⟨0x50#8, .timer, none, [], none⟩] }) := by
  by_cases ha : (s.rtimer.exp && !s.heldOff) = true
  · simp only [execRtExpire, ha, if_true, Host.Outcome.next.injEq] at e
    simp only [Bool.and_eq_true, Bool.not_eq_true'] at ha
    exact .inr ⟨ha.1, ha.2, by rw [← e]; rfl⟩
  · simp only [execRtExpire, ha] at e
    exact .inl (Host.Outcome.next.inj e).symm

/-- PW_EXPIRE (41_timeout_timer.md R146). -/
theorem execPwExpire_cases {s t : State} (e : execPwExpire s = .next t) :
    t = s ∨ (s.pwtimer.exp = true ∧ s.heldOff = false ∧ t = { s with
      periph := if s.periph.pen = true ∧ s.periph.treq = true
                then { s.periph with txwire := s.periph.txwire ++ [0x00#8], treq := false } else s.periph
      pwtimer := Timer.reset
      history := s.history ++ [⟨0x51#8, .timer, none, [], none⟩] }) := by
  by_cases ha : (s.pwtimer.exp && !s.heldOff) = true
  · simp only [execPwExpire, ha, if_true, Host.Outcome.next.injEq] at e
    simp only [Bool.and_eq_true, Bool.not_eq_true'] at ha
    refine .inr ⟨ha.1, ha.2, ?_⟩
    rw [← e]
    cases h1 : s.periph.pen <;> cases h2 : s.periph.treq <;>
      simp [State.recordStep, Timer.stop, Timer.reset, Periph.writeData, placeholder, h1, h2]
  · simp only [execPwExpire, ha] at e
    exact .inl (Host.Outcome.next.inj e).symm

/-- RX_ARRIVE (44_interrupt_handler.md R240). -/
theorem execRxArrive_cases {s t : State} {b : Byte} (e : execRxArrive b s = .next t) :
    t = s ∨ (s.periph.pen = true ∧ s.periph.rreq = false ∧ t = { s with
      periph := { s.periph with prxd := some b, rreq := true, pris := s.periph.pris ||| 0x01#8,
                                rxwire := s.periph.rxwire ++ [b] }
      history := s.history ++ [⟨0x70#8, .peripheral, none, [b.setWidth 32], none⟩] }) := by
  by_cases ha : (s.periph.pen && !s.periph.rreq) = true
  · simp only [execRxArrive, ha, if_true, Host.Outcome.next.injEq] at e
    simp only [Bool.and_eq_true, Bool.not_eq_true'] at ha
    exact .inr ⟨ha.1, ha.2, by rw [← e]; rfl⟩
  · simp only [execRxArrive, ha] at e
    exact .inl (Host.Outcome.next.inj e).symm

/-- TX_REQUEST (44_interrupt_handler.md R241). -/
theorem execTxRequest_cases {s t : State} (e : execTxRequest s = .next t) :
    t = s ∨ (s.periph.pen = true ∧ s.periph.treq = false ∧ t = { s with
      periph := { s.periph with treq := true, pris := s.periph.pris ||| 0x01#8 }
      history := s.history ++ [⟨0x71#8, .peripheral, none, [], none⟩] }) := by
  by_cases ha : (s.periph.pen && !s.periph.treq) = true
  · simp only [execTxRequest, ha, if_true, Host.Outcome.next.injEq] at e
    simp only [Bool.and_eq_true, Bool.not_eq_true'] at ha
    exact .inr ⟨ha.1, ha.2, by rw [← e]; rfl⟩
  · simp only [execTxRequest, ha] at e
    exact .inl (Host.Outcome.next.inj e).symm

/-- OTHER_CAUSE (44_interrupt_handler.md R244). -/
theorem execOtherCause_cases {s t : State} {k : Nat} (e : execOtherCause k s = .next t) :
    t = s ∨ (s.periph.pen = true ∧ 1 ≤ k ∧ k ≤ 7 ∧ t = { s with
      periph := { s.periph with pris := s.periph.pris ||| (0x01#8 <<< k) }
      history := s.history ++ [⟨0x72#8, .peripheral, none, [BitVec.ofNat 32 k], none⟩] }) := by
  by_cases ha : (s.periph.pen && decide (1 ≤ k) && decide (k ≤ 7)) = true
  · simp only [execOtherCause, ha, if_true, Host.Outcome.next.injEq] at e
    simp only [Bool.and_eq_true, decide_eq_true_eq] at ha
    exact .inr ⟨ha.1.1, ha.1.2, ha.2, by rw [← e]; rfl⟩
  · simp only [execOtherCause, ha] at e
    exact .inl (Host.Outcome.next.inj e).symm

/-! ### The sub-operation rows -/

/-- The row PUT (40_ring_buffer.md R120, R122). -/
theorem execPut_cases {s t : State} {b : Byte} (e : execPut b s = .next t) :
    t = s ∨ (s.call = some (.put b) ∧ (
      (s.ring.cnt = s.ring.cap ∧ t = { s with
        history := s.history ++ [⟨0x80#8, .isr, none, [b.setWidth 32], some .putFull⟩], call := none }) ∨
      (s.ring.cnt ≠ s.ring.cap ∧ t = { s with
        ring := { mem := s.ring.mem.set s.ring.wr (some b), rd := s.ring.rd, wr := (s.ring.wr + 1) % s.ring.cap,
                  cnt := s.ring.cnt + 1 }
        history := s.history ++ [⟨0x80#8, .isr, none, [b.setWidth 32], some .putOk⟩], call := none }))) := by
  by_cases hc : s.call = some (.put b)
  · simp only [execPut, hc, if_true, Host.Outcome.next.injEq] at e
    refine .inr ⟨hc, ?_⟩
    rcases State.putByte_cases s.endCall .isr b with ⟨h, g⟩ | ⟨h, g⟩
    · exact .inl ⟨h, by rw [← e, g]; rfl⟩
    · exact .inr ⟨h, by rw [← e, g]; rfl⟩
  · simp only [execPut, hc, if_false, Host.Outcome.next.injEq] at e
    exact .inl e.symm

/-- The row GET is skipped, or is RD_LOOP's GET (40_ring_buffer.md R121, R122). -/
theorem execGet_eq (s : State) :
    (s.getCalled = false ∧ execGet s = .next s) ∨
      (∃ h, s.call = some (.get h) ∧
        execGet s = atomicStep s ((s.endCall.getByte .host (some h)).andThen fun r => .ok r.2)) := by
  rcases hc : s.call with _ | ⟨_ | _ | _⟩ <;> simp [execGet, State.getCalled, hc]

/-- The row GET (40_ring_buffer.md R121, R122). -/
theorem execGet_cases {s t : State} (e : execGet s = .next t) :
    t = s ∨ (∃ h, s.call = some (.get h) ∧ (
      (s.ring.cnt = 0 ∧ t = { s with
        history := s.history ++ [⟨0x81#8, .host, some h, [], some .gotEmpty⟩], call := none }) ∨
      (∃ b, s.ring.cnt ≠ 0 ∧ s.ring.mem[s.ring.rd]?.getD none = some b ∧ t = { s with
        ring := { s.ring with rd := (s.ring.rd + 1) % s.ring.cap, cnt := s.ring.cnt - 1 }
        history := s.history ++ [⟨0x81#8, .host, some h, [], some (.gotByte b)⟩], call := none }))) := by
  rcases execGet_eq s with ⟨_, q⟩ | ⟨h, hc, q⟩
  · exact .inl (by simpa [q, eq_comm] using e)
  · rw [q] at e
    rcases State.getByte_cases s.endCall .host (some h) with ⟨h0, g⟩ | ⟨h0, hb, g⟩ | ⟨b, h0, hb, g⟩ <;> rw [g] at e
    · exact .inr ⟨h, hc, .inl ⟨h0, (Host.Outcome.next.inj e).symm⟩⟩
    · cases e
    · exact .inr ⟨h, hc, .inr ⟨b, h0, hb, (Host.Outcome.next.inj e).symm⟩⟩

/-- The row PRODUCER_STEP is skipped, or is its caller's PRODUCER_STEP (43_write_engine.md R210). -/
theorem execProducerStep_eq (s : State) :
    (s.producerCalled = false ∧ execProducerStep s = .next s) ∨
      (∃ port, s.call = some (.producer port) ∧ s.periph.pen = true ∧ s.periph.treq = true ∧
        execProducerStep s = atomicStep s (s.endCall.produce (producerAgent port) port)) := by
  rcases hc : s.call with _ | ⟨_ | _ | _⟩ <;> cases hp : s.periph.pen <;> cases ht : s.periph.treq <;>
    simp [execProducerStep, State.producerCalled, hc, hp, ht]

/-- The row PRODUCER_STEP (43_write_engine.md R210). -/
theorem execProducerStep_cases {s t : State} (e : execProducerStep s = .next t) :
    t = s ∨ (∃ port, s.call = some (.producer port) ∧ s.periph.pen = true ∧ s.periph.treq = true ∧
      s.endCall.produce (producerAgent port) port = .ok t) := by
  rcases execProducerStep_eq s with ⟨_, q⟩ | ⟨port, hc, hp, ht, q⟩
  · exact .inl (by simpa [q, eq_comm] using e)
  · rcases atomicStep_eq_next (q ▸ e) with g | ⟨_, g⟩
    · exact .inr ⟨port, hc, hp, ht, g⟩
    · exact .inl g

end Sys2Proof.Machine
end

