-- ==== Sys2Proof/Laws/Commands.lean ====
section
/-! SUPPORT. What the four command words decode to (30_encoding.md R92, R98), and what the rows OPEN, CLOSE, READ and
WRITE can come to. -/

namespace Sys2Proof

/-- The slave address stands in the low bits of an OPEN word (30_encoding.md R94). -/
theorem openWord_saddr (a : BitVec 7) : (Command.openC a).word.extractLsb' 0 7 = a := by
  revert a; decide

/-- An OPEN word written out (30_encoding.md R92). -/
theorem openWord_eq (a : BitVec 7) : (Command.openC a).word = 0x10000000#32 ||| a.setWidth 32 := by
  revert a; decide

theorem decodeCommand_open (a : BitVec 7) (a1 : Word) :
    decodeCommand (Command.openC a).word a1 = .ok (.openC a) := by
  have h1 : (Command.openC a).word.extractLsb' 28 4 = 0x1#4 := by
    revert a; decide
  have h2 : (Command.openC a).word.extractLsb' 7 21 = 0#21 := by
    revert a; decide
  simp [decodeCommand, h1, h2, openWord_saddr]

theorem decodeCommand_close (a1 : Word) : decodeCommand Command.closeC.word a1 = .ok .closeC := rfl

theorem decodeCommand_read (a1 : Word) :
    decodeCommand Command.readC.word a1 = if a1.getLsbD 31 then .error .sizeRange else .ok .readC := rfl

theorem decodeCommand_write (a1 : Word) :
    decodeCommand Command.writeC.word a1 = if a1.getLsbD 31 then .error .sizeRange else .ok .writeC := rfl

/-- Bit 31 of a word, as a bound (30_encoding.md R95). -/
theorem getLsbD_31_iff (a : Word) : a.getLsbD 31 = true ↔ 2 ^ 31 ≤ a.toNat := by
  have := a.isLt
  rw [BitVec.getLsbD, Nat.testBit_eq_decide_div_mod_eq, decide_eq_true_eq]
  omega

namespace Machine

/-- What the issue of a command, latched and marked busy, is run on. -/
def State.latched (s : State) (h : Nat) (w : Word) : State :=
  { s with ports := s.ports.modify h fun q => { q with lcmd := w, ovr := false, busy := true } }

@[simp] theorem State.latched_hostMay (s : State) (h j : Nat) (w : Word) :
    (s.latched h w).hostMay j = s.hostMay j := by
  have e : (s.latched h w).heldOff = s.heldOff := rfl
  have l : (s.latched h w).ports.length = s.ports.length := by simp [State.latched]
  simp only [State.hostMay, State.hasPort, e, l]

@[simp] theorem State.latched_launch (s : State) (h : Nat) (w : Word) : (s.latched h w).launch = s.launch := rfl
@[simp] theorem State.latched_life (s : State) (h : Nat) (w : Word) : (s.latched h w).life = s.life := rfl
@[simp] theorem State.latched_cfg (s : State) (h : Nat) (w : Word) : (s.latched h w).cfg = s.cfg := rfl
@[simp] theorem State.latched_ring (s : State) (h : Nat) (w : Word) : (s.latched h w).ring = s.ring := rfl
@[simp] theorem State.latched_rd (s : State) (h : Nat) (w : Word) : (s.latched h w).rd = s.rd := rfl
@[simp] theorem State.latched_wr (s : State) (h : Nat) (w : Word) : (s.latched h w).wr = s.wr := rfl
@[simp] theorem State.latched_rsem (s : State) (h : Nat) (w : Word) : (s.latched h w).rsem = s.rsem := rfl
@[simp] theorem State.latched_wsem (s : State) (h : Nat) (w : Word) : (s.latched h w).wsem = s.wsem := rfl
@[simp] theorem State.latched_rtimer (s : State) (h : Nat) (w : Word) : (s.latched h w).rtimer = s.rtimer := rfl
@[simp] theorem State.latched_pwtimer (s : State) (h : Nat) (w : Word) : (s.latched h w).pwtimer = s.pwtimer := rfl
@[simp] theorem State.latched_ien (s : State) (h : Nat) (w : Word) : (s.latched h w).ien = s.ien := rfl
@[simp] theorem State.latched_dropcnt (s : State) (h : Nat) (w : Word) : (s.latched h w).dropcnt = s.dropcnt := rfl
@[simp] theorem State.latched_faults (s : State) (h : Nat) (w : Word) : (s.latched h w).faults = s.faults := rfl
@[simp] theorem State.latched_periph (s : State) (h : Nat) (w : Word) : (s.latched h w).periph = s.periph := rfl
@[simp] theorem State.latched_hmem (s : State) (h : Nat) (w : Word) : (s.latched h w).hmem = s.hmem := rfl
@[simp] theorem State.latched_sched (s : State) (h : Nat) (w : Word) : (s.latched h w).sched = s.sched := rfl
@[simp] theorem State.latched_busData (s : State) (h : Nat) (w : Word) : (s.latched h w).busData = s.busData := rfl
@[simp] theorem State.latched_history (s : State) (h : Nat) (w : Word) : (s.latched h w).history = s.history := rfl
@[simp] theorem State.latched_ports (s : State) (h : Nat) (w : Word) :
    (s.latched h w).ports = s.ports.modify h fun q => { q with lcmd := w, ovr := false, busy := true } := rfl

/-- The latching port, where it exists. -/
theorem State.latched_port_self {s : State} {h : Nat} (hh : h < s.ports.length) (w : Word) :
    (s.latched h w).port h = { s.port h with lcmd := w, ovr := false, busy := true } :=
  State.port_updPort_self hh _

/-- Every other port. -/
theorem State.latched_port_ne {s : State} {h j : Nat} (hj : j ≠ h) (w : Word) :
    (s.latched h w).port j = s.port j :=
  State.port_updPort_ne hj _

/-- The row OPEN can come to: no step, an overrun, or OPEN's body. -/
theorem execOpenCmd_cases {s t : State} {h : Nat} {a : BitVec 7} (e : execOpenCmd h a s = .next t) :
    t = s ∨ (s.hostMay h = true ∧ (s.port h).busy = true ∧ t = s.overrun h) ∨
      (s.hostMay h = true ∧ (s.port h).busy = false ∧ t = (s.latched h (Command.openC a).word).openIssue h) := by
  have e := (Host.Outcome.next.inj e).symm
  rcases State.hostCmd_cases s h (Command.openC a).word with ⟨_, g⟩ | ⟨hm, hb, g⟩ | ⟨_, _, ⟨x, hx⟩, _⟩ | ⟨hm, hb, k, hk, g⟩
  · exact .inl (e.trans g)
  · exact .inr (.inl ⟨hm, hb, e.trans g⟩)
  · simp [decodeCommand_open] at hx
  · rw [decodeCommand_open] at hk
    injection hk with hk
    subst hk
    exact .inr (.inr ⟨hm, hb, e.trans g⟩)

/-- The row CLOSE can come to: no step, an overrun, or CLOSE's body. -/
theorem execCloseCmd_cases {s t : State} {h : Nat} (e : execCloseCmd h s = .next t) :
    t = s ∨ (s.hostMay h = true ∧ (s.port h).busy = true ∧ t = s.overrun h) ∨
      (s.hostMay h = true ∧ (s.port h).busy = false ∧ t = (s.latched h Command.closeC.word).closeIssue h) := by
  have e := (Host.Outcome.next.inj e).symm
  rcases State.hostCmd_cases s h Command.closeC.word with ⟨_, g⟩ | ⟨hm, hb, g⟩ | ⟨_, _, ⟨x, hx⟩, _⟩ | ⟨hm, hb, k, hk, g⟩
  · exact .inl (e.trans g)
  · exact .inr (.inl ⟨hm, hb, e.trans g⟩)
  · simp [decodeCommand_close] at hx
  · rw [decodeCommand_close] at hk
    injection hk with hk
    subst hk
    exact .inr (.inr ⟨hm, hb, e.trans g⟩)

/-- What the issue of an illegal word leaves (45_lifecycle.md R291). -/
def State.illegalIssue (s : State) (h : Nat) (w : Word) : State :=
  { s with
    ports := s.ports.modify h fun q => { q with lcmd := w, ovr := false, result := 0xFFFFFFFD#32 }
    history := s.history ++ [⟨0x0F#8, .host, some h, [w], none⟩] }

/-- The row READ can come to: no step, an overrun, an illegal completion for a size of 2^31 or more, or READ's body. -/
theorem execReadCmd_cases {s t : State} {h : Nat} (e : execReadCmd h s = .next t) :
    t = s ∨ (s.hostMay h = true ∧ (s.port h).busy = true ∧ t = s.overrun h) ∨
      (s.hostMay h = true ∧ (s.port h).busy = false ∧ 2 ^ 31 ≤ (s.port h).arg1.toNat ∧
        t = s.illegalIssue h Command.readC.word) ∨
      (s.hostMay h = true ∧ (s.port h).busy = false ∧ (s.port h).arg1.toNat < 2 ^ 31 ∧
        t = (s.latched h Command.readC.word).readIssue h) := by
  have e := (Host.Outcome.next.inj e).symm
  have hs := getLsbD_31_iff (s.port h).arg1
  rcases State.hostCmd_cases s h Command.readC.word with ⟨_, g⟩ | ⟨hm, hb, g⟩ | ⟨hm, hb, ⟨x, hx⟩, g⟩ | ⟨hm, hb, k, hk, g⟩
  · exact .inl (e.trans g)
  · exact .inr (.inl ⟨hm, hb, e.trans g⟩)
  · rw [decodeCommand_read] at hx
    split at hx
    · exact .inr (.inr (.inl ⟨hm, hb, hs.mp ‹_›, e.trans g⟩))
    · cases hx
  · rw [decodeCommand_read] at hk
    split at hk
    · cases hk
    · injection hk with hk
      subst hk
      exact .inr (.inr (.inr ⟨hm, hb, Nat.lt_of_not_le fun c => ‹¬ _› (hs.mpr c), e.trans g⟩))

/-- The row WRITE can come to: no step, an overrun, an illegal completion for a size of 2^31 or more, or WRITE's
body. -/
theorem execWriteCmd_cases {s t : State} {h : Nat} (e : execWriteCmd h s = .next t) :
    t = s ∨ (s.hostMay h = true ∧ (s.port h).busy = true ∧ t = s.overrun h) ∨
      (s.hostMay h = true ∧ (s.port h).busy = false ∧ 2 ^ 31 ≤ (s.port h).arg1.toNat ∧
        t = s.illegalIssue h Command.writeC.word) ∨
      (s.hostMay h = true ∧ (s.port h).busy = false ∧ (s.port h).arg1.toNat < 2 ^ 31 ∧
        t = (s.latched h Command.writeC.word).writeIssue h) := by
  have e := (Host.Outcome.next.inj e).symm
  have hs := getLsbD_31_iff (s.port h).arg1
  rcases State.hostCmd_cases s h Command.writeC.word with
    ⟨_, g⟩ | ⟨hm, hb, g⟩ | ⟨hm, hb, ⟨x, hx⟩, g⟩ | ⟨hm, hb, k, hk, g⟩
  · exact .inl (e.trans g)
  · exact .inr (.inl ⟨hm, hb, e.trans g⟩)
  · rw [decodeCommand_write] at hx
    split at hx
    · exact .inr (.inr (.inl ⟨hm, hb, hs.mp ‹_›, e.trans g⟩))
    · cases hx
  · rw [decodeCommand_write] at hk
    split at hk
    · cases hk
    · injection hk with hk
      subst hk
      exact .inr (.inr (.inr ⟨hm, hb, Nat.lt_of_not_le fun c => ‹¬ _› (hs.mpr c), e.trans g⟩))

/-- The row ILLEGAL_COMMAND can come to: no step, an overrun, or the illegal completion. -/
theorem execIllegalCommand_cases {s t : State} {h : Nat} {w : Word} (e : execIllegalCommand h w s = .next t) :
    t = s ∨ (s.hostMay h = true ∧ (s.port h).busy = true ∧ t = s.overrun h) ∨
      (s.hostMay h = true ∧ (s.port h).busy = false ∧ (∃ x, decodeCommand w (s.port h).arg1 = .error x) ∧
        t = s.illegalIssue h w) := by
  unfold execIllegalCommand at e
  split at e
  · rename_i x hx
    have e := (Host.Outcome.next.inj e).symm
    rcases State.hostCmd_cases s h w with ⟨_, g⟩ | ⟨hm, hb, g⟩ | ⟨hm, hb, _, g⟩ | ⟨_, _, k, hk, _⟩
    · exact .inl (e.trans g)
    · exact .inr (.inl ⟨hm, hb, e.trans g⟩)
    · exact .inr (.inr ⟨hm, hb, ⟨x, hx⟩, e.trans g⟩)
    · rw [hk] at hx
      cases hx
  · exact .inl (Host.Outcome.next.inj e).symm

/-! ### The issue rows -/

theorem execOpenIssue_cases {s t : State} {h : Nat} (e : execOpenIssue h s = .next t) :
    t = s ∨ (s.issuing h Command.isOpen = true ∧ t = s.openIssue h) := by
  unfold execOpenIssue at e
  split at e
  · exact .inr ⟨‹_›, (Host.Outcome.next.inj e).symm⟩
  · exact .inl (Host.Outcome.next.inj e).symm

theorem execCloseIssue_cases {s t : State} {h : Nat} (e : execCloseIssue h s = .next t) :
    t = s ∨ (s.issuing h (fun k => k = .closeC) = true ∧ t = s.closeIssue h) := by
  unfold execCloseIssue at e
  split at e
  · exact .inr ⟨‹_›, (Host.Outcome.next.inj e).symm⟩
  · exact .inl (Host.Outcome.next.inj e).symm

theorem execReadIssue_cases {s t : State} {h : Nat} (e : execReadIssue h s = .next t) :
    t = s ∨ (s.issuing h (fun k => k = .readC) = true ∧ t = s.readIssue h) := by
  unfold execReadIssue at e
  split at e
  · exact .inr ⟨‹_›, (Host.Outcome.next.inj e).symm⟩
  · exact .inl (Host.Outcome.next.inj e).symm

theorem execWriteIssue_cases {s t : State} {h : Nat} (e : execWriteIssue h s = .next t) :
    t = s ∨ (s.issuing h (fun k => k = .writeC) = true ∧ t = s.writeIssue h) := by
  unfold execWriteIssue at e
  split at e
  · exact .inr ⟨‹_›, (Host.Outcome.next.inj e).symm⟩
  · exact .inl (Host.Outcome.next.inj e).symm

/-- A port inside an issue exists, is busy and idle of phase (45_lifecycle.md R289). -/
theorem State.issuing_port {s : State} {h : Nat} {want : Command → Bool} (e : s.issuing h want = true) :
    h < s.ports.length ∧ (s.port h).busy = true ∧ (s.port h).phase = .idle := by
  simp only [State.issuing, Bool.and_eq_true, decide_eq_true_eq, State.hasPort_iff] at e
  exact ⟨e.1.1.1, e.1.1.2, e.1.2⟩

end Machine

end Sys2Proof
end

