-- ==== Sys2Proof/Laws/Encoding.lean ====
section
/-! SUPPORT. The fields of a step word and the port of a CMD offset, read back from what the encoder builds
(30_encoding.md R99, 10_state.md R45). -/

namespace Sys2Proof

/-- A step word as a number. -/
theorem mkStepWord_toNat (kind : BitVec 8) (port : Nat) (opnd : Word) :
    (mkStepWord kind port opnd).toNat = opnd.toNat * 2 ^ 16 + (port % 2 ^ 8) * 2 ^ 8 + kind.toNat := by
  have := kind.isLt
  have : port % 2 ^ 8 < 2 ^ 8 := Nat.mod_lt _ (by decide)
  simp only [mkStepWord, BitVec.toNat_append, BitVec.toNat_ofNat, Nat.shiftLeft_eq]
  rw [← Nat.shiftLeft_eq (opnd.toNat), ← Nat.shiftLeft_add_eq_or_of_lt ‹_›, Nat.shiftLeft_eq, ← Nat.shiftLeft_eq,
    ← Nat.shiftLeft_add_eq_or_of_lt ‹_›, Nat.shiftLeft_eq]
  omega

@[simp] theorem mkStepWord_kind (kind : BitVec 8) (port : Nat) (opnd : Word) :
    (mkStepWord kind port opnd).extractLsb' 0 8 = kind := by
  have := kind.isLt
  apply BitVec.eq_of_toNat_eq
  rw [BitVec.extractLsb'_toNat, mkStepWord_toNat, Nat.shiftRight_eq_div_pow]
  omega

@[simp] theorem mkStepWord_port (kind : BitVec 8) (port : Nat) (opnd : Word) :
    (mkStepWord kind port opnd).extractLsb' 8 8 = BitVec.ofNat 8 port := by
  have := kind.isLt
  apply BitVec.eq_of_toNat_eq
  rw [BitVec.extractLsb'_toNat, mkStepWord_toNat, Nat.shiftRight_eq_div_pow, BitVec.toNat_ofNat]
  omega

@[simp] theorem mkStepWord_opnd (kind : BitVec 8) (port : Nat) (opnd : Word) :
    (mkStepWord kind port opnd).extractLsb' 16 32 = opnd := by
  have := kind.isLt
  have := opnd.isLt
  apply BitVec.eq_of_toNat_eq
  rw [BitVec.extractLsb'_toNat, mkStepWord_toNat, Nat.shiftRight_eq_div_pow]
  omega

theorem cmdOffset_toNat {h : Nat} (hh : portOk h) : (cmdOffset h).toNat = 0x100 + 0x20 * h := by
  simp only [portOk, Config.maxHost] at hh
  simp only [cmdOffset, BitVec.toNat_ofNat]
  omega

/-- The CMD register's offset leads back to its port. -/
theorem cmdPortOf_cmdOffset {h : Nat} (hh : portOk h) : cmdPortOf (cmdOffset h) .word = some h := by
  have hb : h < 120 := hh
  simp only [cmdPortOf, cmdOffset_toNat hh, Config.maxHost]
  rw [if_pos (by simp; omega)]
  congr 1
  omega

end Sys2Proof
end

