-- ==== Sys2Proof/Laws/Invariant.lean ====
section
/-! SUPPORT. The invariant of a concrete state, as a question that decide answers: the quantifiers over all port
numbers are cut down to the ports there are. -/

namespace Sys2Proof.Machine

/-- The ring's part of the check. -/
abbrev Ring.Check (r : Ring) : Prop :=
  0 < r.mem.length ∧ r.rd < r.mem.length ∧ r.cnt ≤ r.mem.length ∧ r.wr = (r.rd + r.cnt) % r.mem.length ∧
    ∀ i < r.cnt, (r.mem[(r.rd + i) % r.mem.length]?.getD none).isSome = true

/-- The lifecycle's part of the check. -/
abbrev State.LifeCheck (s : State) : Prop :=
  (s.life.opened = true ↔ s.life.lstate ≠ .closed) ∧
    (∀ h < s.ports.length, (s.port h).phase = .opBuild → s.life.lstate = .opening) ∧
    (∀ h < s.ports.length, ∀ j < s.ports.length, (s.port h).phase = .opBuild → (s.port j).phase = .opBuild → h = j) ∧
    (s.life.lstate = .opening → ∃ h < s.ports.length, (s.port h).phase = .opBuild)

/-- The line's part of the check. -/
abbrev State.LineCheck (s : State) : Prop :=
  (s.periph.pen = true ↔ s.life.lstate = .opened) ∧ s.ien = s.periph.pen ∧
    s.periph.pim = (if s.periph.pen then 0x01#8 else 0x00#8) ∧
    (s.periph.pen = false → s.periph.rreq = false ∧ s.periph.treq = false ∧ s.periph.pris = 0#8) ∧
    (s.periph.rreq = true → s.periph.prxd.isSome = true) ∧ s.periph.psaddr = s.cfg.slaveAddr

/-- The counts' part of the check. -/
abbrev State.CountCheck (s : State) : Prop :=
  s.rd.count.toNat ≤ s.rd.size.toNat ∧ s.rd.size.toNat < 2147483648 ∧
    s.wr.count.toNat ≤ s.wr.size.toNat ∧ s.wr.size.toNat < 2147483648 ∧ s.faults.toNat < 8

/-- A timer's part of the check. -/
abbrev Timer.Check (t : Timer) : Prop := (t.armed = true ↔ t.rem ≠ 0#32) ∧ (t.exp = true → t.armed = false)

/-- The ports' part of the check. -/
abbrev State.PortCheck (s : State) : Prop :=
  1 ≤ s.ports.length ∧ s.ports.length ≤ 120 ∧ ∀ p ∈ s.ports, (p.phase = .idle ↔ p.busy = false)

/-- The whole check. -/
def State.invCheck (s : State) : Bool :=
  decide s.PortCheck && decide s.LifeCheck && decide s.ring.Check && decide s.CountCheck && decide s.rtimer.Check &&
    decide s.pwtimer.Check && decide s.LineCheck && decide (Memory.wf s.hmem) && decide (s.call = none)

/-- Only an existing port stands in a phase other than IDLE. -/
theorem State.lt_of_phase {s : State} {h : Nat} (e : (s.port h).phase ≠ .idle) : h < s.ports.length := by
  by_contra c
  rw [State.port_of_not_hasPort c] at e
  exact e rfl

/-- A state that passes the check meets the invariant. -/
theorem State.inv_of_check {s : State} (c : s.invCheck = true) : s.Inv := by
  simp only [State.invCheck, Bool.and_eq_true, decide_eq_true_eq] at c
  obtain ⟨⟨⟨⟨⟨⟨⟨⟨⟨h1, h2, h3⟩, l1, l2, l3, l4⟩, r1, r2, r3, r4, r5⟩, a1, a2, b1, b2, f⟩, t1⟩, t2⟩,
    n1, n2, n3, n4, n5, n6⟩, m⟩, cl⟩ := c
  have lt : ∀ h, (s.port h).phase = .opBuild → h < s.ports.length := fun h e => State.lt_of_phase (by simp [e])
  exact {
    ports_pos := h1, ports_le := h2, ports := h3,
    life := ⟨l1, fun h e => l2 h (lt h e) e, fun h j e g => l3 h (lt h e) j (lt j g) e g,
      fun e => let ⟨h, _, g⟩ := l4 e; ⟨h, g⟩⟩,
    ring := ⟨r1, r2, r3, r4, r5⟩, read_le := a1, read_size := a2, write_le := b1, write_size := b2,
    rtimer := t1, pwtimer := t2, faults := f,
    line := ⟨n1, n2, n3, fun e => (n4 e).1, fun e => (n4 e).2.1, fun e => (n4 e).2.2, n5, n6⟩, hmem := m, call := cl }

end Sys2Proof.Machine
end

