-- ==== Sys2Proof/Laws/PerInstr.lean ====
section
/-! SUPPORT. Per instruction: a row of the opcode table with an 8-bit code is encoded as a step word whose low byte is
that code (30_encoding.md R99). -/

namespace Sys2Proof.Laws

/-- The instruction's encoding carries its kind code in bits 7:0. -/
def StepCode.Statement (i : Instr) : Prop :=
  ∀ k, i.kindCode = some k → ∃ w, encode i = .stepWord w ∧ w.extractLsb' 0 8 = k

/-- A step word carries the kind it is built from. -/
theorem stepCode_of {i : Instr} {c : BitVec 8} {port : Nat} {opnd : Word} (hk : i.kindCode = some c)
    (he : encode i = .stepWord (mkStepWord c port opnd)) : StepCode.Statement i := by
  intro k h
  rw [hk] at h
  injection h with h
  exact ⟨_, he, by rw [mkStepWord_kind, h]⟩

theorem StepCode.openCmd (h : Nat) (saddr : BitVec 7) : StepCode.Statement (.openCmd h saddr) := by
  intro k h
  cases h
theorem StepCode.closeCmd (h : Nat) : StepCode.Statement (.closeCmd h) := by
  intro k h
  cases h
theorem StepCode.readCmd (h : Nat) : StepCode.Statement (.readCmd h) := by
  intro k h
  cases h
theorem StepCode.writeCmd (h : Nat) : StepCode.Statement (.writeCmd h) := by
  intro k h
  cases h
theorem StepCode.openIssue (h : Nat) : StepCode.Statement (.openIssue h) := stepCode_of rfl rfl
theorem StepCode.closeIssue (h : Nat) : StepCode.Statement (.closeIssue h) := stepCode_of rfl rfl
theorem StepCode.readIssue (h : Nat) : StepCode.Statement (.readIssue h) := stepCode_of rfl rfl
theorem StepCode.writeIssue (h : Nat) : StepCode.Statement (.writeIssue h) := stepCode_of rfl rfl
theorem StepCode.illegalCommand (h : Nat) (w : Word) : StepCode.Statement (.illegalCommand h w) := stepCode_of rfl rfl
theorem StepCode.opBuild (h : Nat) : StepCode.Statement (.opBuild h) := stepCode_of rfl rfl
theorem StepCode.rdLoop (h : Nat) : StepCode.Statement (.rdLoop h) := stepCode_of rfl rfl
theorem StepCode.rdWaitWake (h : Nat) : StepCode.Statement (.rdWaitWake h) := stepCode_of rfl rfl
theorem StepCode.rdWoken (h : Nat) : StepCode.Statement (.rdWoken h) := stepCode_of rfl rfl
theorem StepCode.rdExit (h : Nat) : StepCode.Statement (.rdExit h) := stepCode_of rfl rfl
theorem StepCode.wrPendCheck (h : Nat) : StepCode.Statement (.wrPendCheck h) := stepCode_of rfl rfl
theorem StepCode.wrDrain (h : Nat) : StepCode.Statement (.wrDrain h) := stepCode_of rfl rfl
theorem StepCode.wrCheck (h : Nat) : StepCode.Statement (.wrCheck h) := stepCode_of rfl rfl
theorem StepCode.wrWaitWake (h : Nat) : StepCode.Statement (.wrWaitWake h) := stepCode_of rfl rfl
theorem StepCode.wrWaitTimeout (h : Nat) : StepCode.Statement (.wrWaitTimeout h) := stepCode_of rfl rfl
theorem StepCode.wrExit (h : Nat) : StepCode.Statement (.wrExit h) := stepCode_of rfl rfl
theorem StepCode.isrService : StepCode.Statement .isrService := stepCode_of rfl rfl
theorem StepCode.rtExpire : StepCode.Statement .rtExpire := stepCode_of rfl rfl
theorem StepCode.pwExpire : StepCode.Statement .pwExpire := stepCode_of rfl rfl
theorem StepCode.tick : StepCode.Statement .tick := stepCode_of rfl rfl
theorem StepCode.rxArrive (b : Byte) : StepCode.Statement (.rxArrive b) := stepCode_of rfl rfl
theorem StepCode.txRequest : StepCode.Statement .txRequest := stepCode_of rfl rfl
theorem StepCode.otherCause (k : Nat) : StepCode.Statement (.otherCause k) := stepCode_of rfl rfl
theorem StepCode.put (b : Byte) : StepCode.Statement (.put b) := stepCode_of rfl rfl
theorem StepCode.get : StepCode.Statement .get := stepCode_of rfl rfl
theorem StepCode.producerStep : StepCode.Statement .producerStep := stepCode_of rfl rfl

end Sys2Proof.Laws
end

