-- ==== Sys2Proof/Tests/Slice0.lean ====
section
/-! SUPPORT. The tests: WellFormed's refusals, a written-out word for every constructor, single steps from
spec/95_test_vectors.md, and for each obligation with hypotheses a state and operands that meet them. -/

namespace Sys2Proof.Tests

open Sys2Proof Sys2Proof.Machine

/-! ### WellFormed refuses ill-formed terms -/

theorem test_wf_port : ¬ (Instr.readCmd 120).WellFormed := by decide
theorem test_wf_port_ok : (Instr.readCmd 119).WellFormed := by decide
theorem test_wf_step_port : ¬ (Instr.rdLoop 120).WellFormed := by decide
theorem test_wf_cause_low : ¬ (Instr.otherCause 0).WellFormed := by decide
theorem test_wf_cause_high : ¬ (Instr.otherCause 8).WellFormed := by decide
theorem test_wf_illegal_open : ¬ (Instr.illegalCommand 0 0x1000007F#32).WellFormed := by decide
theorem test_wf_illegal_close : ¬ (Instr.illegalCommand 0 0x20000000#32).WellFormed := by decide
theorem test_wf_illegal_ok : (Instr.illegalCommand 0 0x10000080#32).WellFormed := by decide

/-! ### Decoding, from the words of V-ENC and the codes of 30_encoding.md R99 -/

/-- ARG1 of every port is `a`. -/
def args (a : Word) : Nat → Word := fun _ => a

theorem test_decode_open :
    decode (.busWrite 0x100#12 .word 0x1000007F#32) (args 0x80000000#32) = .ok (.openCmd 0 0x7F#7) := by decide
theorem test_decode_close :
    decode (.busWrite 0x120#12 .word 0x20000000#32) (args 0x80000000#32) = .ok (.closeCmd 1) := by decide
theorem test_decode_read :
    decode (.busWrite 0x100#12 .word 0x30000000#32) (args 0x7FFFFFFF#32) = .ok (.readCmd 0) := by decide
theorem test_decode_write :
    decode (.busWrite 0x140#12 .word 0x40000000#32) (args 0#32) = .ok (.writeCmd 2) := by decide
theorem test_decode_reserved_bits :
    decodeCommand 0x10000080#32 4#32 = .error .reservedOpen ∧ decodeCommand 0x1FFFFF9D#32 4#32 = .error .reservedOpen ∧
      decodeCommand 0x20000001#32 4#32 = .error .reservedBits ∧
      decodeCommand 0x2F000000#32 4#32 = .error .reservedBits ∧
      decodeCommand 0x30000100#32 4#32 = .error .reservedBits ∧
      decodeCommand 0x4000000F#32 4#32 = .error .reservedBits := by decide
theorem test_decode_no_opcode :
    decodeCommand 0x00000000#32 4#32 = .error .opcode ∧ decodeCommand 0x50000000#32 4#32 = .error .opcode ∧
      decodeCommand 0xF0000000#32 4#32 = .error .opcode ∧ decodeCommand 0xFFFFFFFF#32 4#32 = .error .opcode := by decide
theorem test_decode_illegal_size :
    decodeCommand 0x30000000#32 0x80000000#32 = .error .sizeRange ∧
      decodeCommand 0x40000000#32 0xFFFFFFFF#32 = .error .sizeRange := by decide

theorem test_decode_issue_codes :
    decodeStep 0x000000000101#48 = .ok (.openIssue 1) ∧ decodeStep 0x000000000102#48 = .ok (.closeIssue 1) ∧
      decodeStep 0x000000000103#48 = .ok (.readIssue 1) ∧ decodeStep 0x000000000104#48 = .ok (.writeIssue 1) := by decide
theorem test_decode_illegal_code :
    decodeStep 0x50000000010F#48 = .ok (.illegalCommand 1 0x50000000#32) := by rfl
theorem test_decode_build_and_read_codes :
    decodeStep 0x000000000211#48 = .ok (.opBuild 2) ∧ decodeStep 0x000000000222#48 = .ok (.rdLoop 2) ∧
      decodeStep 0x000000000223#48 = .ok (.rdWaitWake 2) ∧ decodeStep 0x000000000224#48 = .ok (.rdWoken 2) ∧
      decodeStep 0x000000000225#48 = .ok (.rdExit 2) := by decide
theorem test_decode_write_codes :
    decodeStep 0x000000007736#48 = .ok (.wrPendCheck 119) ∧ decodeStep 0x000000007737#48 = .ok (.wrDrain 119) ∧
      decodeStep 0x000000007738#48 = .ok (.wrCheck 119) ∧ decodeStep 0x000000007739#48 = .ok (.wrWaitWake 119) ∧
      decodeStep 0x00000000773A#48 = .ok (.wrWaitTimeout 119) ∧
      decodeStep 0x00000000773B#48 = .ok (.wrExit 119) := by decide
theorem test_decode_agent_codes :
    decodeStep 0x40#48 = .ok .isrService ∧ decodeStep 0x50#48 = .ok .rtExpire ∧ decodeStep 0x51#48 = .ok .pwExpire ∧
      decodeStep 0x60#48 = .ok .tick ∧ decodeStep 0x0000005A0070#48 = .ok (.rxArrive 0x5A#8) ∧
      decodeStep 0x71#48 = .ok .txRequest ∧ decodeStep 0x000000020072#48 = .ok (.otherCause 3) := by decide
theorem test_decode_sub_codes :
    decodeStep 0x000000AA0080#48 = .ok (.put 0xAA#8) ∧ decodeStep 0x81#48 = .ok .get ∧
      decodeStep 0x82#48 = .ok .producerStep := by decide
theorem test_decode_rejects :
    decodeStep 0x10#48 = .error .noSuchKind ∧ decodeStep 0x000000007822#48 = .error .portField ∧
      decodeStep 0x000000010022#48 = .error .operandField ∧ decodeStep 0x000001000070#48 = .error .operandField ∧
      decodeStep 0x000000070072#48 = .error .operandField ∧
      decode (.busWrite 0x100#12 .half 0x20000000#32) (args 0#32) = .error .notAnInstruction := by decide

/-! ### States the vectors start from -/

/-- Does the outcome answer a next state of which `p` holds? -/
def after (o : Host.Outcome State Fault Refusal) (p : State → Bool) : Bool :=
  match o with
  | .next t => p t
  | .fault _ => false
  | .refused _ => false

/-- The next state of an outcome. -/
def nextOf (o : Host.Outcome State Fault Refusal) : State :=
  match o with
  | .next t => t
  | .fault _ => State.reset
  | .refused _ => State.reset

/-- There is a next state of which `P` holds, when `after` says so. -/
theorem exists_next {o : Host.Outcome State Fault Refusal} {P : State → Prop} [DecidablePred P]
    (h : after o (fun t => decide (P t)) = true) : ∃ t, o = .next t ∧ P t := by
  cases o with
  | next t => exact ⟨t, rfl, of_decide_eq_true h⟩
  | fault r => cases h
  | refused r => cases h

/-- The fault of an outcome. -/
def faultOf (o : Host.Outcome State Fault Refusal) : Option Fault :=
  match o with
  | .next _ => none
  | .fault r => some r
  | .refused _ => none

/-- The reset state with two ports, a ring of 4 cells, the vectors' HMEM_ADMIT and two written bytes. -/
def base : State :=
  { State.reset with
    launch := { preemptStrict := false, boardReady := true,
                hmemAdmit := [(0x20000000, 0x20000FFF), (0xFFFFFFFF, 0xFFFFFFFF), (0, 0)] }
    ports := [Port.reset, Port.reset]
    ring := Ring.reset 4
    hmem := [(0, 0x99#8), (0x20000100, 0xDE#8), (0x20000101, 0xAD#8)] }

/-- `Open(10, 100, 5, 0x1D)` of spec/95_test_vectors.md. -/
def opened : State :=
  { base with
    life := { opened := true, lstate := .opened }
    cfg := { readTimeout := 10#32, writeTimeout := 100#32, pwTimeout := 5#32, slaveAddr := 0x1D#7 }
    periph := { Periph.reset with pen := true, psaddr := 0x1D#7, pim := 0x01#8 }
    ien := true }

/-- Port 0 with its operands set. -/
def withArgs (s : State) (a0 a1 a2 : Word) : State :=
  s.updPort 0 fun q => { q with arg0 := a0, arg1 := a1, arg2 := a2 }

/-- Port 0 inside a command, at a phase. -/
def inPhase (s : State) (p : Phase) : State := s.updPort 0 fun q => { q with busy := true, phase := p }

/-- Port 0 inside the issue of a command word. -/
def midIssue (s : State) (w : Word) : State := s.updPort 0 fun q => { q with busy := true, lcmd := w }

/-- A read in flight of `size` bytes into `buf` with `count` left. -/
def reading (s : State) (buf size count : Word) : State :=
  { s with rd := { s.rd with buf := buf, size := size, count := count, active := true } }

/-- A write in flight of `size` bytes from `buf` with `count` left. -/
def writing (s : State) (buf size count : Word) : State := { s with wr := { buf := buf, size := size, count := count } }

/-- A ring of four cells with 0x33 in cell 3 and 0x44 in cell 0 queued (V-RING). -/
def ringTwo : Ring := { mem := [some 0x44#8, none, none, some 0x33#8], rd := 3, wr := 1, cnt := 2 }

/-- A full ring of four cells (V-RING). -/
def ringFull : Ring := { mem := [some 1#8, some 2#8, some 3#8, some 4#8], rd := 1, wr := 1, cnt := 4 }

/-- The peripheral with a received byte pending and its cause raised. -/
def rxPending (s : State) (b : Byte) : State :=
  { s with periph := { s.periph with rreq := true, prxd := some b, pris := 0x01#8 } }

/-- The peripheral with a transmit request pending and its cause raised. -/
def txPending (s : State) : State := { s with periph := { s.periph with treq := true, pris := 0x01#8 } }

/-- The machine inside a step, at the call of a sub-operation. -/
def calling (s : State) (c : SubCall) : State := { s with call := some c }

/-! ### One step each, from the vectors -/

/-- V-LIFE: OPEN from reset. -/
theorem test_open : after (exec (.openCmd 0 0x1D#7) (withArgs base 10#32 100#32 5#32)) (fun t =>
    t.life = ⟨true, .opening⟩ && (t.port 0).phase = .opBuild && (t.port 0).busy && t.faults = 0#32) = true := by decide
/-- V-LIFE: OPEN on an Open instance. -/
theorem test_open_again : after (exec (.openCmd 0 0x01#7) (withArgs opened 1#32 1#32 1#32)) (fun t =>
    (t.port 0).result = 0#32 && !(t.port 0).busy && t.cfg = opened.cfg) = true := by decide
/-- V-LIFE: the board was not ready. -/
theorem test_open_board : after (exec (.openCmd 0 0x1D#7)
    { base with launch := { base.launch with boardReady := false } }) (fun t => t.faults = 0x4#32) = true := by decide
/-- V-LIFE: OP_BUILD after the issue. -/
theorem test_opBuild : after (exec (.opBuild 0)
    (nextOf (exec (.openCmd 0 0x1D#7) (withArgs base 10#32 100#32 5#32)))) (fun t =>
    t.cfg = ⟨10#32, 100#32, 5#32, 0x1D#7⟩ && t.periph.psaddr = 0x1D#7 && t.periph.pim = 0x01#8 && t.ien &&
      (t.port 0).result = 1#32 && t.bstat = 0x20D#32) = true := by decide
/-- V-LIFE: CLOSE of a closed instance. -/
theorem test_close_closed : after (exec (.closeCmd 0) base) (fun t =>
    (t.port 0).result = 0#32 && t.life = base.life && t.periph = base.periph) = true := by decide
/-- V-LIFE: port 0 closes while port 1 waits in a WRITE. -/
theorem test_close_inFlight : after (exec (.closeCmd 0)
    (opened.updPort 1 fun q => { q with busy := true, phase := .wrWait })) (fun t =>
    t.faults = 0x1#32 && t.life = ⟨false, .closed⟩ && !t.ien && !t.periph.pen && (t.port 1).phase = .wrWait) = true := by
  decide
/-- V-READ: READ on a closed instance. -/
theorem test_read_closed : after (exec (.readCmd 0) (withArgs base 0x20000000#32 4#32 0#32)) (fun t =>
    (t.port 0).result = 0xFFFFFFFE#32 && !(t.port 0).busy && t.rd = base.rd) = true := by decide
/-- V-READ: a second READ while one is active. -/
theorem test_read_overlap : after (exec (.readCmd 0)
    (withArgs { opened with rd := { opened.rd with active := true } } 0x20000040#32 2#32 0#32)) (fun t =>
    t.faults = 0x2#32 && t.rd.buf = 0x20000040#32 && t.rd.count = 2#32 && t.rtimer = ⟨true, 10#32, false⟩ &&
      (t.port 0).phase = .rdLoop) = true := by decide
/-- V-WRITE: not Open is checked before size 0. -/
theorem test_write_closed : after (exec (.writeCmd 0) (withArgs base 0x20000100#32 0#32 0#32)) (fun t =>
    (t.port 0).result = 0xFFFFFFFE#32) = true := by decide
/-- V-WRITE: the busy lock. -/
theorem test_write_busy : after (exec (.writeCmd 0)
    (withArgs (writing opened 0x20000200#32 2#32 2#32) 0x20000100#32 4#32 0#32)) (fun t =>
    (t.port 0).result = 0xFFFFFFFF#32 && t.wr = ⟨0x20000200#32, 2#32, 2#32⟩) = true := by decide
/-- V-ISSUE: an illegal word on a port whose OVR is set. -/
theorem test_illegal : after (exec (.illegalCommand 0 0x50000000#32)
    (base.updPort 0 fun q => { q with ovr := true })) (fun t =>
    (t.port 0).result = 0xFFFFFFFD#32 && (t.port 0).lcmd = 0x50000000#32 && !(t.port 0).ovr && !(t.port 0).busy &&
      (t.port 0).phase = .idle) = true := by decide
/-- V-ISSUE: a command written to a busy port. -/
theorem test_overrun : after (runInput (.busWrite 0x100#12 .word 0x20000000#32) (inPhase opened .rdWait)) (fun t =>
    (t.port 0).ovr && (t.port 0).phase = .rdWait && t.life = opened.life) = true := by decide
/-- R271, as OPEN's own body. -/
theorem test_openIssue : after (exec (.openIssue 0) (midIssue base 0x1000001D#32)) (fun t =>
    (t.port 0).phase = .opBuild && t.life.lstate = .opening) = true := by decide
/-- R274, as CLOSE's own body. -/
theorem test_closeIssue : after (exec (.closeIssue 0) (midIssue opened 0x20000000#32)) (fun t =>
    t.life.lstate = .closed && !(t.port 0).busy) = true := by decide
/-- R171, as READ's own body. -/
theorem test_readIssue : after (exec (.readIssue 0)
    (midIssue (withArgs opened 0x20000000#32 3#32 0#32) 0x30000000#32)) (fun t =>
    t.rd.size = 3#32 && t.rd.active && (t.port 0).phase = .rdLoop) = true := by decide
/-- R201, as WRITE's own body. -/
theorem test_writeIssue : after (exec (.writeIssue 0)
    (midIssue (withArgs opened 0x20000100#32 4#32 0#32) 0x40000000#32)) (fun t =>
    t.wr = ⟨0x20000100#32, 4#32, 4#32⟩ && (t.port 0).phase = .wrPendCheck) = true := by decide
/-- V-READ: the buffer position wraps. -/
theorem test_rdLoop_wraps : after (exec (.rdLoop 0)
    { inPhase (reading opened 0xFFFFFFFF#32 2#32 1#32) .rdLoop with
      ring := { mem := [some 0x77#8, none, none, none], rd := 0, wr := 1, cnt := 1 } }) (fun t =>
    Memory.read t.hmem 0 = some 0x77#8 && t.rd.count = 0#32 && t.ring.cnt = 0) = true := by decide
/-- V-READ: a buffer that is not admitted. -/
theorem test_rdLoop_stuck : after (exec (.rdLoop 0)
    { inPhase (reading opened 0x30000000#32 2#32 1#32) .rdLoop with ring := ringTwo }) (fun t =>
    t = { inPhase (reading opened 0x30000000#32 2#32 1#32) .rdLoop with ring := ringTwo }) = true := by decide
/-- V-READ: RD_WAIT wake. -/
theorem test_rdWaitWake : after (exec (.rdWaitWake 0) { inPhase opened .rdWait with rsem := true }) (fun t =>
    !t.rsem && (t.port 0).phase = .rdWoken) = true := by decide
/-- V-READ: woken by the timeout. -/
theorem test_rdWoken : after (exec (.rdWoken 0)
    { inPhase opened .rdWoken with rd := { opened.rd with timedOut := true, wakePending := true }, ring := ringTwo })
    (fun t => !t.rd.wakePending && (t.port 0).phase = .rdExit && t.ring = ringTwo) = true := by decide
/-- V-READ: a short READ. -/
theorem test_rdExit : after (exec (.rdExit 0)
    { inPhase (reading opened 0x20000000#32 10#32 4#32) .rdExit with rtimer := ⟨false, 0#32, true⟩ }) (fun t =>
    (t.port 0).result = 6#32 && t.rtimer = ⟨false, 0#32, false⟩ && !t.rd.active) = true := by decide
/-- V-WRITE: WR_PEND_CHECK with a pending request. -/
theorem test_wrPendCheck : after (exec (.wrPendCheck 0)
    { txPending (inPhase (writing opened 0x20000100#32 1#32 1#32) .wrPendCheck) with
      pwtimer := ⟨true, 3#32, false⟩ }) (fun t =>
    t.pwtimer = ⟨false, 0#32, false⟩ && t.periph.txwire = [0xDE#8] && !t.periph.treq && t.wr.count = 0#32 && t.wsem &&
      (t.port 0).phase = .wrDrain) = true := by decide
/-- V-WRITE: WR_DRAIN. -/
theorem test_wrDrain : after (exec (.wrDrain 0) { inPhase opened .wrDrain with wsem := true }) (fun t =>
    !t.wsem && (t.port 0).phase = .wrCheck) = true := by decide
/-- V-WRITE: WR_CHECK with a finite bound. -/
theorem test_wrCheck : after (exec (.wrCheck 0)
    (inPhase { writing opened 0x20000100#32 2#32 2#32 with cfg := { opened.cfg with writeTimeout := 3#32 } } .wrCheck))
    (fun t => !(t.port 0).wwaitInf && (t.port 0).wwaitRem = 3#32 && (t.port 0).phase = .wrWait) = true := by decide
/-- V-WRITE: WR_CHECK with WAIT_FOREVER. -/
theorem test_wrCheck_forever : after (exec (.wrCheck 0)
    (inPhase { writing opened 0x20000100#32 2#32 2#32 with
      cfg := { opened.cfg with writeTimeout := 0xFFFFFFFF#32 } } .wrCheck))
    (fun t => (t.port 0).wwaitInf && (t.port 0).wwaitRem = 0#32 && (t.port 0).phase = .wrWait) = true := by decide
/-- V-WRITE: WR_WAIT wake. -/
theorem test_wrWaitWake : after (exec (.wrWaitWake 0) { inPhase opened .wrWait with wsem := true }) (fun t =>
    !t.wsem && (t.port 0).phase = .wrExit) = true := by decide
/-- V-WRITE: WR_WAIT timeout. -/
theorem test_wrWaitTimeout : after (exec (.wrWaitTimeout 0) (inPhase opened .wrWait)) (fun t =>
    (t.port 0).phase = .wrExit && t.wsem = opened.wsem) = true := by decide
/-- V-WRITE: WR_EXIT. -/
theorem test_wrExit : after (exec (.wrExit 0) (inPhase (writing opened 0x20000100#32 4#32 1#32) .wrExit)) (fun t =>
    (t.port 0).result = 3#32 && t.wr.count = 0#32 && !(t.port 0).busy) = true := by decide
/-- V-ISR: the ring is full, DROPCNT wraps, the reader is woken. -/
theorem test_isr_full : after (exec .isrService
    { rxPending opened 0x61#8 with
      ring := ringFull, dropcnt := 0xFFFFFFFF#32, rd := { opened.rd with wakePending := true } }) (fun t =>
    t.ring = ringFull && t.dropcnt = 0#32 && !t.periph.rreq && !t.rd.wakePending && t.rsem) = true := by decide
/-- V-ISR: receive and transmit in one step. -/
theorem test_isr_both : after (exec .isrService
    (txPending (rxPending (writing opened 0x20000100#32 1#32 1#32) 0x01#8))) (fun t =>
    t.ring.cnt = 1 && !t.rsem && t.periph.txwire = [0xDE#8] && !t.periph.treq && t.wr.count = 0#32 && t.wsem &&
      t.periph.pris = 0#8) = true := by decide
/-- V-TMR: RT_EXPIRE. -/
theorem test_rtExpire : after (exec .rtExpire { opened with rtimer := ⟨false, 0#32, true⟩ }) (fun t =>
    !t.rtimer.exp && t.rd.timedOut && t.rsem) = true := by decide
/-- V-TMR: PW_EXPIRE with a request pending. -/
theorem test_pwExpire : after (exec .pwExpire { txPending opened with pwtimer := ⟨false, 0#32, true⟩ }) (fun t =>
    t.periph.txwire = [0x00#8] && !t.periph.treq && t.pwtimer = ⟨false, 0#32, false⟩) = true := by decide
/-- V-TMR: one TICK, one timer expiring. -/
theorem test_tick : after (exec .tick
    { (opened.updPort 1 fun q => { q with busy := true, phase := .rdWait, wwaitRem := 5#32 }) with
      rtimer := ⟨true, 2#32, false⟩, pwtimer := ⟨true, 1#32, false⟩ }) (fun t =>
    t.rtimer = ⟨true, 1#32, false⟩ && t.pwtimer = ⟨false, 0#32, true⟩ && (t.port 1).wwaitRem = 5#32) = true := by decide
/-- V-TMR: a write wait counts to zero. -/
theorem test_tick_wait : after (exec .tick
    (opened.updPort 0 fun q => { q with busy := true, phase := .wrWait, wwaitRem := 1#32 })) (fun t =>
    (t.port 0).wwaitRem = 0#32 && (t.port 0).waitExpired) = true := by decide
/-- V-ISR: RX_ARRIVE. -/
theorem test_rxArrive : after (exec (.rxArrive 0x5A#8) opened) (fun t =>
    t.periph.prxd = some 0x5A#8 && t.periph.rreq && t.periph.pris = 0x01#8 && t.periph.rxwire = [0x5A#8]) = true := by
  decide
/-- R246: an interrupt that a received byte raised services a request whose own cause was cleared before
(notes/assumptions/23.md). -/
theorem test_isr_stalled_request : after (exec .isrService
    (rxPending { writing opened 0x20000100#32 2#32 2#32 with periph := { opened.periph with treq := true } } 0x5A#8))
    (fun t => t.periph.txwire = [0xDE#8] && !t.periph.treq && t.wr.count = 1#32 && t.ring.cnt = 1) = true := by decide
/-- R241. -/
theorem test_txRequest : after (exec .txRequest opened) (fun t => t.periph.treq && t.periph.pris = 0x01#8) = true := by
  decide
/-- V-ISR: OTHER_CAUSE(3). -/
theorem test_otherCause : after (exec (.otherCause 3) opened) (fun t => t.periph.pris = 0x08#8 && !t.irq) = true := by
  decide
/-- V-RING: PUT into cell 2. -/
theorem test_put : after (exec (.put 0xAA#8)
    (calling { base with ring := { Ring.reset 4 with rd := 2, wr := 2 } } (.put 0xAA#8))) (fun t =>
    t.ring = { mem := [none, none, some 0xAA#8, none], rd := 2, wr := 3, cnt := 1 }) = true := by decide
/-- V-RING: PUT into a full ring. -/
theorem test_put_full : after (exec (.put 0xBB#8) (calling { base with ring := ringFull } (.put 0xBB#8)))
    (fun t => t.ring = ringFull && t.call = none) = true := by decide
/-- V-RING: GET across the end of the ring. -/
theorem test_get : after (exec .get (calling { base with ring := ringTwo } (.get 1))) (fun t =>
    t.ring = { ringTwo with rd := 0, cnt := 1 } &&
      t.history = [⟨0x81#8, .host, some 1, [], some (.gotByte 0x33#8)⟩]) = true := by decide
/-- V-WRITE: PRODUCER_STEP across the end of the address space. -/
theorem test_producer_wraps : after (exec .producerStep
    (calling (txPending (writing opened 0xFFFFFFFF#32 2#32 1#32)) (.producer none))) (fun t => t.periph.txwire = [0x99#8] && t.wr.count = 0#32 && t.wsem) = true := by decide
/-- V-WRITE: PRODUCER_STEP with nothing to send. -/
theorem test_producer_arms : after (exec .producerStep
    (calling { txPending opened with pwtimer := ⟨true, 2#32, false⟩ } (.producer none)))
    (fun t => t.pwtimer = ⟨true, 5#32, false⟩ && t.wsem && t.periph.treq && t.periph.txwire = []) = true := by decide
/-- R210: PRODUCER_STEP never runs on its own, and at a call with no request pending it sends nothing. -/
theorem test_producer_alone :
    after (exec .producerStep (txPending (writing opened 0x20000100#32 2#32 2#32)))
        (fun t => t.wr.count = 2#32 && t.periph.treq) = true ∧
      after (exec .producerStep (calling (writing opened 0x20000100#32 2#32 2#32) (.producer none)))
        (fun t => t.wr.count = 2#32) = true := by decide
/-- R122: PUT and GET never run on their own. -/
theorem test_ring_rows_alone :
    after (exec (.put 0xAA#8) opened) (fun t => t = opened) = true ∧
      after (exec .get { base with ring := ringTwo }) (fun t => t.ring = ringTwo) = true := by decide
/-- R72: the read of a host byte that was never written stops the model. -/
theorem test_unwritten :
    faultOf (exec .isrService (txPending (writing opened 0x20000300#32 1#32 1#32))) = some .modelUnwritten := by decide
/-- V-ISSUE: register reads. -/
theorem test_bus_reads :
    opened.busValue 0x000#12 .word = 0x20D#32 ∧ opened.busValue 0x100#12 .word = 0#32 ∧
      opened.busValue 0x03C#12 .word = 0#32 ∧ opened.busValue 0x020#12 .word = 0x1D#32 ∧
      (inPhase opened .rdWait).busValue 0x114#12 .word = 0x31#32 := by decide
/-- V-ISSUE: an operand write. -/
theorem test_bus_write : after (runInput (.busWrite 0x10C#12 .word 7#32) base) (fun t =>
    (t.port 0).arg2 = 7#32) = true := by decide
/-- The interface: the very next step after withFetchWord runs the row's word. -/
theorem test_fetch_open : after (step (State.reset.withFetchWord 32 0x10000000)) (fun t =>
    t.life.lstate = .opening && (t.port 0).phase = .opBuild && t.sched = []) = true := by decide
theorem test_fetch_tick : after (step (State.reset.withFetchWord 8 0x60)) (fun t =>
    t.history = [⟨0x60#8, .tickSource, none, [], none⟩]) = true := by decide
theorem test_fetch_put : after (step (State.reset.withFetchWord 8 0x80)) (fun t =>
    t.ring.cnt = 1 && t.ring.queued = [some 0x00#8] && t.call = none) = true := by decide

/-! ### Witnesses: for each obligation with hypotheses, a state and operands that meet them -/

/-- A machine with the most ports the register map holds. -/
def full : State := { base with ports := List.replicate 120 Port.reset }

/-- RTIMER and PWTIMER both expired. -/
def bothExpired : State := { opened with rtimer := ⟨false, 0#32, true⟩, pwtimer := ⟨false, 0#32, true⟩ }

/-- An Open instance whose admitted memory is two written bytes, with a read and a write of them in flight. -/
def written : State :=
  { reading (writing opened 0x20000100#32 2#32 2#32) 0x20000100#32 2#32 2#32 with
    launch := { preemptStrict := false, boardReady := true, hmemAdmit := [(0x20000100, 0x20000101)] } }

theorem written_memory {s : State} (hl : s.launch = written.launch) (hm : s.hmem = written.hmem) : s.MemoryWritten := by
  intro a ha
  simp only [State.admitted, hl, written, List.any_cons, List.any_nil, Bool.or_false, Bool.and_eq_true,
    decide_eq_true_eq] at ha
  have h : a.toNat = 0x20000100 ∨ a.toNat = 0x20000101 := by omega
  rw [hm]
  rcases h with h | h <;> rw [h] <;> decide

theorem witness_CommandDecodeFollowsTheProcedure :
    (0x1000007F#32).toNat / 2 ^ 28 = 1 ∧ (0x1000007F#32).toNat / 2 ^ 7 % 2 ^ 21 = 0 ∧
    (0x20000000#32).toNat / 2 ^ 28 = 2 ∧ (0x20000000#32).toNat % 2 ^ 28 = 0 ∧
    (0x30000000#32).toNat / 2 ^ 28 = 3 ∧ (0x30000000#32).toNat % 2 ^ 28 = 0 ∧ (0x7FFFFFFF#32).toNat < 2 ^ 31 ∧
    (0x40000000#32).toNat / 2 ^ 28 = 4 ∧ (0x40000000#32).toNat % 2 ^ 28 = 0 ∧
    (0x50000000#32).toNat / 2 ^ 28 = 5 ∧ ¬ (0x80000000#32).toNat < 2 ^ 31 := by decide

theorem witness_DecodeOfEncodeIsTheInstruction :
    (Instr.openCmd 119 0x7F#7).WellFormed ∧ (Instr.illegalCommand 119 0xFFFFFFFF#32).WellFormed ∧
    (Instr.otherCause 1).WellFormed ∧ (Instr.otherCause 7).WellFormed ∧
    ∀ h, ((args 0x7FFFFFFF#32) h).toNat < 2 ^ 31 :=
  ⟨by decide, by decide, by decide, by decide, fun _ => by show (0x7FFFFFFF#32).toNat < 2 ^ 31; decide⟩

theorem witness_DecodedEntryIsItsEncoding :
    decode (.stepWord 0x000000FF0070#48) (args 0#32) = .ok (.rxArrive 0xFF#8) := by decide

theorem witness_StepRunsTheDecodedInstruction :
    base.sched = [] ∧
    (∃ s : State, s.sched = [.stepWord 0x60#48] ∧
      decode (.stepWord 0x60#48) (fun h => (s.port h).arg1) = .ok .tick) ∧
    (∃ s : State, s.sched = [.busWrite 0x100#12 .word 0#32] ∧ cmdPortOf 0x100#12 .word = some 0 ∧
      decode (.busWrite 0x100#12 .word 0#32) (fun h => (s.port h).arg1) = .error .opcode) ∧
    (∃ s : State, s.sched = [.stepWord 0#48] ∧
      decode (.stepWord 0#48) (fun h => (s.port h).arg1) = .error .noSuchKind) ∧
    (∃ s : State, s.sched = [.busRead 0x000#12 .word, .hostStore 0#32 0#8, .reset] ∧
      decode (.busRead 0x000#12 .word) (fun h => (s.port h).arg1) = .error .notAnInstruction) :=
  ⟨rfl, ⟨base.pushInput (.stepWord 0x60#48), rfl, rfl⟩, ⟨base.pushInput (.busWrite 0x100#12 .word 0#32), rfl, rfl, rfl⟩,
    ⟨base.pushInput (.stepWord 0#48), rfl, rfl⟩,
    ⟨((base.pushInput .reset).pushInput (.hostStore 0#32 0#8)).pushInput (.busRead 0x000#12 .word), rfl, rfl⟩⟩

theorem witness_OpenCommandTestsAndSets :
    (opened.hostMay 0 = true ∧ (opened.port 0).busy = false ∧ opened.life.opened = true) ∧
    (base.hostMay 1 = true ∧ (base.port 1).busy = false ∧ base.life.opened = false) := by decide

/-- The instance is being built by port 0. -/
def opening : State := { inPhase base .opBuild with life := { opened := true, lstate := .opening } }

theorem witness_OpBuildConstructsTheInstance :
    opening.hostMay 0 = true ∧ (opening.port 0).phase = .opBuild := by decide

theorem witness_CloseCommandTearsDown :
    (base.hostMay 0 = true ∧ (base.port 0).busy = false ∧ (base.port 0).phase = .idle ∧ base.life.lstate ≠ .opened) ∧
    (opened.hostMay 1 = true ∧ (opened.port 1).busy = false ∧ (opened.port 1).phase = .idle ∧
      opened.life.lstate = .opened) := by decide

theorem witness_ReadCommandStarts :
    (base.hostMay 0 = true ∧ (base.port 0).busy = false ∧ (base.port 0).arg1.toNat < 2147483648 ∧
      base.life.lstate ≠ .opened) ∧
    (opened.hostMay 0 = true ∧ (opened.port 0).busy = false ∧ opened.life.lstate = .opened ∧
      (opened.port 0).arg1 = 0#32) ∧
    ((withArgs opened 0#32 0x7FFFFFFF#32 0#32).hostMay 0 = true ∧
      ((withArgs opened 0#32 0x7FFFFFFF#32 0#32).port 0).busy = false ∧
      ((withArgs opened 0#32 0x7FFFFFFF#32 0#32).port 0).arg1.toNat < 2147483648 ∧
      ((withArgs opened 0#32 0x7FFFFFFF#32 0#32).port 0).arg1 ≠ 0#32) := by decide

theorem witness_WriteCommandStarts :
    (base.hostMay 0 = true ∧ (base.port 0).busy = false ∧ (base.port 0).arg1.toNat < 2147483648 ∧
      base.life.lstate ≠ .opened) ∧
    ((withArgs (writing opened 0#32 1#32 1#32) 0#32 1#32 0#32).hostMay 0 = true ∧
      (withArgs (writing opened 0#32 1#32 1#32) 0#32 1#32 0#32).wr.count ≠ 0#32) ∧
    ((withArgs opened 0#32 0x7FFFFFFF#32 0#32).hostMay 0 = true ∧
      ((withArgs opened 0#32 0x7FFFFFFF#32 0#32).port 0).arg1 ≠ 0#32 ∧
      (withArgs opened 0#32 0x7FFFFFFF#32 0#32).wr.count = 0#32 ∧ opened.life.lstate = .opened) := by decide

theorem witness_IllegalWordCompletesAtIssue :
    base.hostMay 0 = true ∧ (base.port 0).busy = false ∧
    (∃ e, decodeCommand 0xFFFFFFFF#32 (base.port 0).arg1 = .error e) ∧
    (withArgs base 0#32 0x80000000#32 0#32).hostMay 0 = true ∧
    2147483648 ≤ ((withArgs base 0#32 0x80000000#32 0#32).port 0).arg1.toNat :=
  ⟨by decide, by decide, ⟨.opcode, by decide⟩, by decide, by decide⟩

theorem witness_BusyPortIgnoresWritesAndSetsOverrun :
    (full.hostMay 119 = true ∧ (full.port 119).busy = false) ∧
    ((inPhase opened .rdWait).hostMay 0 = true ∧ ((inPhase opened .rdWait).port 0).busy = true) :=
  ⟨⟨rfl, rfl⟩, by decide⟩

theorem witness_CommandStepIsLatchThenIssueRow :
    opened.hostMay 0 = true ∧ (opened.port 0).busy = false ∧ (opened.port 0).phase = .idle ∧
    (opened.port 0).arg1.toNat < 2147483648 := by decide

theorem witness_IssueRowsCompleteInsideAnIssue :
    (midIssue opened 0x10000001#32).issuing 0 Command.isOpen = true ∧
    (midIssue opened 0x20000000#32).issuing 0 (fun k => k = .closeC) = true ∧
    (midIssue opened 0x30000000#32).issuing 0 (fun k => k = .readC) = true ∧
    (midIssue opened 0x40000000#32).issuing 0 (fun k => k = .writeC) = true := by decide

theorem witness_RdLoopWithoutAByte :
    ((inPhase opened .rdLoop).hostMay 0 = true ∧ ((inPhase opened .rdLoop).port 0).phase = .rdLoop ∧
      (inPhase opened .rdLoop).rd.count = 0#32) ∧
    ((inPhase (reading opened 0#32 1#32 1#32) .rdLoop).rd.count ≠ 0#32 ∧
      (inPhase (reading opened 0#32 1#32 1#32) .rdLoop).ring.cnt = 0) := by decide

theorem witness_RdLoopStoresTheOldestByte :
    (let s : State := { inPhase (reading opened 0xFFFFFFFF#32 2#32 1#32) .rdLoop with ring := ringTwo };
      s.hostMay 0 = true ∧ (s.port 0).phase = .rdLoop ∧ s.rd.count ≠ 0#32 ∧ s.ring.cnt ≠ 0 ∧
        s.ring.mem[s.ring.rd]?.getD none = some 0x33#8 ∧ s.admitted (s.rd.buf + (s.rd.size - s.rd.count)) = true) ∧
    (let s : State := { inPhase (reading opened 0x30000000#32 2#32 1#32) .rdLoop with ring := ringTwo };
      s.hostMay 0 = true ∧ (s.port 0).phase = .rdLoop ∧ s.rd.count ≠ 0#32 ∧ s.ring.cnt ≠ 0 ∧
        s.admitted (s.rd.buf + (s.rd.size - s.rd.count)) = false) := by decide

/-- The hypotheses that a port's step at a phase shares. -/
theorem witness_phases :
    ∀ p ∈ [Phase.rdWait, .rdWoken, .rdExit, .wrPendCheck, .wrDrain, .wrCheck, .wrWait, .wrExit],
      (inPhase opened p).hostMay 0 = true ∧ ((inPhase opened p).port 0).phase = p := by decide

theorem witness_RdWaitWakeTakesRsem :
    ({ inPhase opened .rdWait with rsem := true }.hostMay 0 = true) ∧ (inPhase opened .rdWait).rsem = false := by decide

theorem witness_RdExitReturnsTheCount : (inPhase (reading opened 0#32 10#32 4#32) .rdExit).Inv :=
  State.inv_of_check (by decide)

theorem witness_ProducerStepSendsOrArms :
    (let s : State := calling (txPending (writing opened 0xFFFFFFFF#32 2#32 1#32)) (.producer (some 1));
      s.call = some (.producer (some 1)) ∧ s.periph.pen = true ∧ s.periph.treq = true ∧ s.wr.count ≠ 0#32 ∧
        s.admitted (s.wr.buf + (s.wr.size - s.wr.count)) = true ∧
        Memory.read s.hmem (s.wr.buf + (s.wr.size - s.wr.count)).toNat = some 0x99#8) ∧
    (let s : State := calling (txPending opened) (.producer none);
      s.call = some (.producer none) ∧ s.periph.pen = true ∧ s.periph.treq = true ∧ s.wr.count = 0#32) ∧
    (let s : State := calling (txPending (writing opened 0x30000000#32 2#32 2#32)) (.producer none);
      s.call = some (.producer none) ∧ s.wr.count ≠ 0#32 ∧
        s.admitted (s.wr.buf + (s.wr.size - s.wr.count)) = false) ∧
    opened.call ≠ some (.producer none) ∧ base.periph.pen = false ∧
    (calling opened (.producer none)).periph.treq = false := by decide

theorem witness_WrPendCheckServicesAPendingRequest :
    (inPhase opened .wrPendCheck).periph.treq = false ∧
    (let s : State := txPending (inPhase (writing opened 0x20000100#32 1#32 1#32) .wrPendCheck);
      s.hostMay 0 = true ∧ s.periph.pen = true ∧ s.periph.treq = true ∧ s.wr.count ≠ 0#32 ∧
        s.admitted (s.wr.buf + (s.wr.size - s.wr.count)) = true ∧
        Memory.read s.hmem (s.wr.buf + (s.wr.size - s.wr.count)).toNat = some 0xDE#8) ∧
    (let s : State := txPending (inPhase (writing opened 0x30000000#32 1#32 1#32) .wrPendCheck);
      s.hostMay 0 = true ∧ s.wr.count ≠ 0#32 ∧ s.admitted (s.wr.buf + (s.wr.size - s.wr.count)) = false) ∧
    (let s : State := txPending (inPhase opened .wrPendCheck);
      s.hostMay 0 = true ∧ s.periph.pen = true ∧ s.periph.treq = true ∧ s.wr.count = 0#32) := by decide

theorem witness_WrCheckDecidesTheWait :
    (inPhase opened .wrCheck).wr.count = 0#32 ∧
    (let s : State := { inPhase (writing opened 0#32 2#32 2#32) .wrCheck with
        cfg := { opened.cfg with writeTimeout := 0#32 } };
      s.hostMay 0 = true ∧ s.wr.count ≠ 0#32 ∧ s.cfg.writeTimeout = 0#32) ∧
    (let s : State := inPhase (writing opened 0#32 2#32 2#32) .wrCheck;
      s.hostMay 0 = true ∧ s.wr.count ≠ 0#32 ∧ s.cfg.writeTimeout ≠ 0#32) := by decide

theorem witness_WrWaitEndsByWakeOrBound :
    ({ inPhase opened .wrWait with wsem := true } : State).hostMay 0 = true ∧ (inPhase opened .wrWait).wsem = false ∧
    ((inPhase opened .wrWait).port 0).wwaitInf = false ∧ ((inPhase opened .wrWait).port 0).wwaitRem = 0#32 ∧
    (let s : State := (inPhase opened .wrWait).updPort 0 fun q => { q with wwaitInf := true };
      s.hostMay 0 = true ∧ (s.port 0).wwaitInf = true) := by decide

theorem witness_WrExitReleasesTheLock : (inPhase (writing opened 0#32 4#32 1#32) .wrExit).Inv :=
  State.inv_of_check (by decide)

theorem witness_PeripheralEventsRaiseTheirCauses :
    opened.periph.pen = true ∧ opened.periph.rreq = false ∧ opened.periph.treq = false ∧ base.periph.pen = false ∧
    (rxPending opened 0#8).periph.rreq = true ∧ (txPending opened).periph.treq = true := by decide

theorem witness_IsrServicesReceive :
    (let s : State := rxPending opened 0x5A#8;
      s.ien = true ∧ s.periph.pris &&& s.periph.pim ≠ 0#8 ∧ s.periph.rreq = true ∧
        s.periph.prxd = some 0x5A#8 ∧ s.periph.treq = false) := by decide

theorem witness_IsrServicesBothConditions :
    base.ien = false ∧
    (let s : State := { opened with periph := { opened.periph with pris := 0x03#8 } };
      s.ien = true ∧ s.periph.pris &&& s.periph.pim ≠ 0#8 ∧ s.periph.rreq = false ∧ s.periph.treq = false) ∧
    (let s : State := txPending (writing opened 0x30000000#32 1#32 1#32);
      s.periph.treq = true ∧ s.wr.count ≠ 0#32 ∧ s.admitted (s.wr.buf + (s.wr.size - s.wr.count)) = false) ∧
    (let s : State := txPending (rxPending (writing opened 0x20000100#32 1#32 1#32) 0x01#8);
      s.ien = true ∧ s.periph.pris &&& s.periph.pim ≠ 0#8 ∧ s.periph.treq = true ∧ s.periph.pen = true ∧
        s.call = none ∧ s.admitted (s.wr.buf + (s.wr.size - s.wr.count)) = true) := by decide

theorem witness_IsrServicesBothConditions_next :
    ∃ t, exec .isrService { rxPending (writing opened 0x20000100#32 1#32 1#32) 0x01#8 with
      periph := { (rxPending opened 0x01#8).periph with treq := false } } = .next t :=
  ⟨_, rfl⟩

theorem witness_IsrNeverBlocksAndLeavesTheRest :
    (txPending (rxPending written 0x01#8)).Inv ∧ (txPending (rxPending written 0x01#8)).MemoryWritten ∧
    (txPending (rxPending written 0x01#8)).isrEnabled = true :=
  ⟨State.inv_of_check (by decide), written_memory rfl rfl, by decide⟩

theorem witness_TimerCallbacksRunOncePerExpiry :
    bothExpired.heldOff = false ∧ bothExpired.rtimer.exp = true ∧ bothExpired.pwtimer.exp = true ∧
    opened.rtimer.exp = false ∧ opened.pwtimer.exp = false := by decide

theorem witness_TickCountsTimersAndWaits :
    (let s : State := { inPhase opened .wrWait with rtimer := ⟨true, 1#32, false⟩, pwtimer := ⟨true, 1#32, false⟩ };
      s.heldOff = false ∧ s.rtimer.armed = true ∧ s.rtimer.rem = 1#32 ∧ s.pwtimer.armed = true ∧
        s.pwtimer.rem = 1#32 ∧ (s.port 0).phase = .wrWait ∧ (s.port 0).wwaitRem = 0#32) ∧
    (let s : State := { (inPhase opened .wrWait).updPort 0 (fun q => { q with wwaitRem := 1#32 }) with
        rtimer := ⟨true, 2#32, false⟩, pwtimer := ⟨true, 2#32, false⟩ };
      s.heldOff = false ∧ s.rtimer.armed = true ∧ s.rtimer.rem ≠ 1#32 ∧ s.pwtimer.rem ≠ 1#32 ∧
        (s.port 0).phase = .wrWait ∧ (s.port 0).wwaitInf = false ∧ (s.port 0).wwaitRem ≠ 0#32) ∧
    opened.rtimer.armed = false ∧ opened.pwtimer.armed = false := by decide

theorem witness_ArmedTimerExpiresAfterItsTicks :
    0 < max (0#32).toNat 1 ∧ max (0#32).toNat 1 ≤ 1 ∧ 2 < max (3#32).toNat 1 ∧ max (3#32).toNat 1 ≤ 3 := by decide

theorem witness_PutAndGetMoveOneByte :
    (let s : State := calling { base with ring := ringFull } (.put 0xBB#8);
      s.call = some (.put 0xBB#8) ∧ s.ring.cnt = s.ring.mem.length) ∧
    (let s : State := calling base (.put 0xAA#8);
      s.call = some (.put 0xAA#8) ∧ s.ring.cnt ≠ s.ring.mem.length) ∧
    base.call ≠ some (.put 0xAA#8) ∧
    (let s : State := calling base (.get 0); s.call = some (.get 0) ∧ s.ring.cnt = 0) ∧
    (let s : State := calling { base with ring := ringTwo } (.get 1);
      s.call = some (.get 1) ∧ s.ring.cnt ≠ 0 ∧ s.ring.mem[s.ring.rd]?.getD none = some 0x33#8) ∧
    base.call ≠ some (.get 0) := by decide

theorem witness_RingIsABoundedFifo : ringTwo.Inv ∧ ringFull.Inv :=
  ⟨⟨by decide, by decide, by decide, by decide, by decide⟩, ⟨by decide, by decide, by decide, by decide, by decide⟩⟩

theorem witness_FaultsAreReadsOfUnwrittenCells :
    (let s : State := txPending (writing opened 0x20000300#32 1#32 1#32);
      faultOf (exec .isrService s) = some .modelUnwritten ∧
        faultOf (exec (.wrPendCheck 0) (inPhase s .wrPendCheck)) = some .modelUnwritten ∧
        faultOf (exec .producerStep (calling s (.producer none))) = some .modelUnwritten) ∧
    (let s : State := { reading base 0#32 1#32 1#32 with ring := { Ring.reset 4 with cnt := 1 } };
      faultOf (exec (.rdLoop 0) (inPhase s .rdLoop)) = some .modelUnwritten ∧
        faultOf (exec .get (calling s (.get 0))) = some .modelUnwritten) ∧
    faultOf (exec .isrService { opened with periph := { opened.periph with rreq := true, pris := 0x01#8 } }) =
      some .modelUnwritten := by decide

theorem witness_BusReadsFollowTheRegisterMap :
    full.heldOff = false ∧ 119 < full.ports.length ∧ (0xFF7#12).toNat % 4 ≠ 0 ∧ 0x03C ≤ (0x0FF#12).toNat ∧
    (0x0FF#12).toNat < 0x100 ∧ 0x18 ≤ ((0xFFC#12).toNat - 0x100) % 0x20 ∧
    base.ports.length ≤ ((0x140#12).toNat - 0x100) / 0x20 :=
  ⟨rfl, by rw [full, List.length_replicate]; decide, by decide, by decide, by decide, by decide, by decide⟩

theorem witness_OtherBusWritesHaveNoEffect :
    BusWidth.byte ≠ .word ∧ (0x0FF#12).toNat < 256 ∧ 16 ≤ ((0x110#12).toNat - 256) % 32 ∧
    (0x102#12).toNat % 4 ≠ 0 ∧ base.ports.length ≤ ((0x140#12).toNat - 0x100) / 0x20 := by decide

theorem witness_StepKeepsTheInvariant :
    ∃ s : State, s.Inv ∧ ∃ t, step s = .next t ∧ t.life.lstate ≠ s.life.lstate :=
  ⟨base.pushInput (.busWrite 0x100#12 .word 0x1000001D#32), State.inv_of_check (by decide), exists_next (by decide)⟩

theorem witness_WrittenMemoryRunsWithoutFaults : written.Inv ∧ written.MemoryWritten :=
  ⟨State.inv_of_check (by decide), written_memory rfl rfl⟩

theorem witness_LifecycleMovesOnlyForward :
    (base.Inv ∧ ∃ t, exec (.openCmd 0 0#7) base = .next t ∧ t.life.lstate ≠ base.life.lstate) ∧
    (opening.Inv ∧ ∃ t, exec (.opBuild 0) opening = .next t ∧ t.life.lstate ≠ opening.life.lstate) ∧
    (opened.Inv ∧ ∃ t, exec (.closeCmd 0) opened = .next t ∧ t.life.lstate ≠ opened.life.lstate) :=
  ⟨⟨State.inv_of_check (by decide), exists_next (by decide)⟩, ⟨State.inv_of_check (by decide), exists_next (by decide)⟩,
    ⟨State.inv_of_check (by decide), exists_next (by decide)⟩⟩

theorem witness_LaunchValuesNeverChange : ∃ t, step (base.pushInput .reset) = .next t := ⟨_, rfl⟩

theorem witness_OnlyEnabledStepsHappen :
    base.ring.Inv ∧ base.enabled .isrService = false ∧ base.enabled .producerStep = false ∧
    base.enabled (.put 0#8) = false ∧ base.enabled (.rdLoop 0) = false ∧
    (rxPending opened 0x01#8).Inv ∧ (rxPending opened 0x01#8).enabled .isrService = true ∧
    (calling (txPending opened) (.producer none)).enabled .producerStep = true :=
  ⟨⟨by decide, by decide, by decide, by decide, by decide⟩, by decide, by decide, by decide, by decide,
    State.inv_of_check (by decide), by decide, by decide⟩

theorem witness_StrictPreemptionHoldsOffTheOthers :
    (let s : State := { rxPending opened 0x01#8 with launch := { opened.launch with preemptStrict := true } };
      s.launch.preemptStrict = true ∧ s.isrEnabled = true) := by decide

theorem witness_RingHasOneProducerAndOneConsumer :
    (∃ t, exec .isrService (rxPending opened 0x5A#8) = .next t ∧ t.ring.mem ≠ opened.ring.mem ∧
      t.ring.wr ≠ opened.ring.wr) ∧
    (∃ t, exec .get (calling { base with ring := ringTwo } (.get 0)) = .next t ∧ t.ring.rd ≠ ringTwo.rd) ∧
    opened.Inv ∧ ∃ t, exec .get opened = .next t :=
  ⟨exists_next (by decide), exists_next (by decide), State.inv_of_check (by decide), ⟨_, rfl⟩⟩

theorem witness_SignalsHaveTheirPosters :
    (∃ t, exec .rtExpire bothExpired = .next t ∧ bothExpired.rd.timedOut = false ∧ t.rd.timedOut = true ∧
      bothExpired.rsem = false ∧ t.rsem = true) ∧
    (∃ t, exec (.rdLoop 0) (inPhase (reading opened 0#32 1#32 1#32) .rdLoop) = .next t ∧ t.rd.wakePending = true) ∧
    (∃ t, exec .isrService (txPending opened) = .next t ∧ opened.wsem = false ∧ t.wsem = true) ∧
    (∃ t, exec (.writeCmd 0) (withArgs opened 0#32 1#32 0#32) = .next t ∧ t.wr.count ≠ opened.wr.count) :=
  ⟨exists_next (by decide), exists_next (by decide),
    exists_next (by decide), exists_next (by decide)⟩

theorem witness_TimersHaveTheirOwners :
    (∃ t, exec (.readCmd 0) (withArgs opened 0#32 1#32 0#32) = .next t ∧ t.rtimer ≠ opened.rtimer) ∧
    (∃ t, exec .isrService (txPending opened) = .next t ∧ t.pwtimer ≠ opened.pwtimer) ∧
    (∃ t, exec .pwExpire bothExpired = .next t ∧ t.pwtimer ≠ bothExpired.pwtimer) :=
  ⟨exists_next (by decide), exists_next (by decide), exists_next (by decide)⟩

theorem witness_OnlyRdLoopStoresToHostMemory :
    ∃ t, exec (.rdLoop 0) { inPhase (reading opened 0x20000000#32 2#32 1#32) .rdLoop with ring := ringTwo } = .next t ∧
      t.hmem ≠ opened.hmem ∧ (0#32) ≠ 0x20000000#32 + (2#32 - 1#32) :=
  exists_next (by decide)

theorem witness_ConfigurationAndFaultBitsAreHeld :
    (∃ t, exec (.opBuild 0) (withArgs opening 1#32 2#32 3#32) = .next t ∧ t.cfg ≠ opening.cfg) ∧
    (∃ t, exec (.closeCmd 0) (reading { opened with faults := 0x2#32 } 0#32 1#32 1#32) = .next t ∧
      (0x2#32).getLsbD 1 = true ∧ t.faults ≠ 0x2#32) :=
  ⟨exists_next (by decide), exists_next (by decide)⟩

theorem witness_WiresGrowByOneByte :
    (∃ t, exec .pwExpire { txPending opened with pwtimer := ⟨false, 0#32, true⟩ } = .next t ∧
      t.periph.txwire ≠ opened.periph.txwire) ∧
    (∃ t, exec (.rxArrive 0#8) opened = .next t ∧ t.periph.rxwire ≠ opened.periph.rxwire) ∧
    (txPending opened).periph.pen = true ∧
    (∃ t, exec .isrService (txPending (writing opened 0x20000100#32 2#32 2#32)) = .next t ∧ t.wr.count ≠ 2#32) :=
  ⟨exists_next (by decide), exists_next (by decide), by decide, exists_next (by decide)⟩

theorem witness_PortsBelongToTheirHosts :
    (∃ t, exec (.openCmd 0 0#7) base = .next t ∧ t.port 0 ≠ base.port 0) ∧
    (∃ t, exec .tick ((inPhase opened .wrWait).updPort 0 fun q => { q with wwaitRem := 1#32 }) = .next t) :=
  ⟨exists_next (by decide), ⟨_, rfl⟩⟩

theorem witness_PortsBlockOnlyWhileWaiting :
    (let s : State := inPhase written .wrPendCheck;
      s.Inv ∧ s.hostMay 0 = true ∧ (s.port 0).phase = .wrPendCheck ∧
        s.admitted (s.wr.buf + (s.wr.size - s.wr.count)) = true ∧
        (Memory.read s.hmem (s.wr.buf + (s.wr.size - s.wr.count)).toNat).isSome = true) ∧
    (let s : State := inPhase written .rdLoop;
      s.Inv ∧ s.hostMay 0 = true ∧ (s.port 0).phase = .rdLoop ∧
        s.admitted (s.rd.buf + (s.rd.size - s.rd.count)) = true) ∧
    (inPhase opened .wrDrain).Inv ∧ (inPhase opened .wrDrain).hostMay 0 = true :=
  ⟨⟨State.inv_of_check (by decide), by decide, by decide, by decide, by decide⟩,
    ⟨State.inv_of_check (by decide), by decide, by decide, by decide⟩, State.inv_of_check (by decide), by decide⟩

theorem witness_NoLostWake :
    (let s : State := inPhase (reading opened 0x20000000#32 1#32 1#32) .rdLoop;
      s.Inv ∧ s.hostMay 0 = true ∧ (s.port 0).phase = .rdLoop ∧ s.rd.count ≠ 0#32 ∧ s.ring.cnt = 0 ∧
        s.cfg.readTimeout ≠ 0#32 ∧ s.periph.pen = true ∧ s.periph.rreq = false ∧
        ∃ s1 s2 s3, exec (.rdLoop 0) s = .next s1 ∧ exec (.rxArrive 0x5A#8) s1 = .next s2 ∧ s2.isrEnabled = true ∧
          exec .isrService s2 = .next s3 ∧ s3.heldOff = false) :=
  ⟨State.inv_of_check (by decide), by decide, by decide, by decide, by decide, by decide, by decide, by decide,
    _, _, _, rfl, rfl, rfl, rfl, rfl⟩

theorem witness_TimerCallbacksCommute :
    bothExpired.launch.preemptStrict = false ∧ bothExpired.rtimer.exp = true ∧ bothExpired.pwtimer.exp = true := by
  decide

theorem witness_WakeOrTimeoutGivesOneResult :
    (let s : State := { inPhase (writing opened 0#32 4#32 1#32) .wrWait with wsem := true };
      s.launch.preemptStrict = false ∧ s.hostMay 0 = true ∧ (s.port 0).phase = .wrWait ∧ s.wsem = true ∧
        (s.port 0).wwaitInf = false ∧ (s.port 0).wwaitRem = 0#32) := by decide

theorem witness_OpenForgetsTheEarlierInstance :
    (let s1 : State := opening;
      let s2 : State := { opening with ring := ringFull, dropcnt := 7#32, rsem := true };
      s1.hostMay 0 = true ∧ s2.hostMay 0 = true ∧ (s1.port 0).phase = .opBuild ∧ (s2.port 0).phase = .opBuild ∧
        (s1.port 0).arg0 = (s2.port 0).arg0 ∧ (s1.port 0).arg1 = (s2.port 0).arg1 ∧
        (s1.port 0).arg2 = (s2.port 0).arg2 ∧ (s1.port 0).lcmd = (s2.port 0).lcmd) := by decide

theorem witness_OpenForgetsTheEarlierInstance_next :
    (∃ t, exec (.opBuild 0) opening = .next t) ∧
    ∃ t, exec (.opBuild 0) { opening with ring := ringFull, dropcnt := 7#32, rsem := true } = .next t :=
  ⟨⟨_, rfl⟩, ⟨_, rfl⟩⟩

theorem witness_HostStoreWritesOneByte :
    base.heldOff = false ∧ base.admitted 0xFFFFFFFF#32 = true ∧ base.admitted 0x1000#32 = false ∧
    Memory.wf base.hmem := by decide

end Sys2Proof.Tests
end

section
/-! PROOF. PREEMPT_STRICT (00_scope.md R9): what a held-off machine does with a host's entry, a timer callback and
TICK. Every guard of such a step asks `heldOff` (directly, or through `hostMay`), so each comes to no step. -/

namespace Sys2Proof.Machine

/-! ### The guards while the others are held off -/

theorem State.hostMay_of_heldOff {s : State} (held : s.heldOff = true) (h : Nat) : s.hostMay h = false := by
  simp [State.hostMay, held]

theorem State.atPhase_of_heldOff {s : State} (held : s.heldOff = true) (h : Nat) (p : Phase) :
    s.atPhase h p = false := by
  simp [State.atPhase, State.hostMay_of_heldOff held]

theorem State.hostCmd_of_heldOff {s : State} (held : s.heldOff = true) (h : Nat) (w : Word) : s.hostCmd h w = s := by
  simp [State.hostCmd, State.hostMay_of_heldOff held]

/-! ### The rows -/

/-- A command row, whichever command it issues (45_lifecycle.md R289). -/
theorem exec_toInstr_of_heldOff {s : State} (held : s.heldOff = true) (h : Nat) (k : Command) :
    exec (k.toInstr h) s = .next s := by
  cases k <;> exact congrArg _ (State.hostCmd_of_heldOff held h _)

/-- The row ILLEGAL_COMMAND: the word is illegal and the host held off, or it is legal and no word of this row. -/
theorem exec_illegalCommand_of_heldOff {s : State} (held : s.heldOff = true) (h : Nat) (w : Word) :
    exec (.illegalCommand h w) s = .next s := by
  cases hd : decodeCommand w (s.port h).arg1 with
  | error _ => simp [exec, execIllegalCommand, hd, State.hostCmd_of_heldOff held]
  | ok _ => simp [exec, execIllegalCommand, hd]

/-- The rows by which the host of port `h` writes its CMD register (45_lifecycle.md R289, R291). -/
def commandRows (h : Nat) (a : BitVec 7) (w : Word) : List Instr :=
  [.openCmd h a, .closeCmd h, .readCmd h, .writeCmd h, .illegalCommand h w]

theorem exec_commandRow_of_heldOff {s : State} (held : s.heldOff = true) {h : Nat} {a : BitVec 7} {w : Word} :
    ∀ i ∈ commandRows h a w, exec i s = .next s := by
  have cmd := exec_toInstr_of_heldOff held h
  simpa [commandRows] using
    ⟨cmd (.openC a), cmd .closeC, cmd .readC, cmd .writeC, exec_illegalCommand_of_heldOff held h w⟩

/-- The sequencer steps of a port, each guarded by the port's phase (60_exceptions.md R301). -/
def sequencerSteps (h : Nat) : List Instr :=
  [.opBuild h, .rdLoop h, .rdWaitWake h, .rdWoken h, .rdExit h, .wrPendCheck h, .wrDrain h, .wrCheck h,
    .wrWaitWake h, .wrWaitTimeout h, .wrExit h]

theorem exec_sequencerStep_of_heldOff {s : State} (held : s.heldOff = true) {h : Nat} :
    ∀ i ∈ sequencerSteps h, exec i s = .next s := by
  have off := State.atPhase_of_heldOff held h
  simp [sequencerSteps, exec, execOpBuild, execRdLoop, execRdWaitWake, execRdWoken, execRdExit, execWrPendCheck,
    execWrDrain, execWrCheck, execWrWaitWake, execWrWaitTimeout, execWrExit, off]

/-- The timer callbacks and TICK, which ask `heldOff` themselves (41_timeout_timer.md R142, R145, R146). -/
def timerSteps : List Instr := [.rtExpire, .pwExpire, .tick]

theorem exec_timerStep_of_heldOff {s : State} (held : s.heldOff = true) :
    ∀ i ∈ timerSteps, exec i s = .next s := by
  simp [timerSteps, exec, execRtExpire, execPwExpire, execTick, held]

/-! ### The schedule's bus and store entries -/

/-- A bus write decodes to nothing but a command on some port (30_encoding.md R98). -/
theorem exists_toInstr_of_decode_busWrite {off : BitVec 12} {bw : BusWidth} {v : Word} {arg1 : Nat → Word} {i : Instr}
    (e : decode (.busWrite off bw v) arg1 = .ok i) : ∃ (h : Nat) (k : Command), i = k.toInstr h := by
  cases hc : cmdPortOf off bw with
  | none => simp [decode, hc] at e
  | some h =>
    cases hd : decodeCommand v (arg1 h) with
    | error _ => simp [decode, hc, hd, Except.map] at e
    | ok k => exact ⟨h, k, by simpa [decode, hc, hd, Except.map, eq_comm] using e⟩

/-- A bus write is a command, an illegal command or a register write, and none of them is taken. -/
theorem runInput_busWrite_of_heldOff {s : State} (held : s.heldOff = true) (off : BitVec 12) (bw : BusWidth)
    (v : Word) : runInput (.busWrite off bw v) s = .next s := by
  cases hc : cmdPortOf off bw with
  | none => simp [runInput, hc, State.busWrite, held]
  | some h =>
    cases hd : decode (.busWrite off bw v) s.arg1Of with
    | error _ => simpa [runInput, hc, hd] using exec_illegalCommand_of_heldOff held h v
    | ok i =>
      obtain ⟨j, k, rfl⟩ := exists_toInstr_of_decode_busWrite hd
      simpa [runInput, hc, hd] using exec_toInstr_of_heldOff held j k

theorem runInput_busRead_of_heldOff {s : State} (held : s.heldOff = true) (off : BitVec 12) (bw : BusWidth) :
    runInput (.busRead off bw) s = .next s := by
  simp [runInput, State.busRead, held]

theorem runInput_hostStore_of_heldOff {s : State} (held : s.heldOff = true) (a : Word) (b : Byte) :
    runInput (.hostStore a b) s = .next s := by
  simp [runInput, State.hostStore, held]

/-- Settles O47: PREEMPT_STRICT with ISR_SERVICE enabled is `heldOff`, and then the rows of a port's host, the timer
rows and the three entries of the hosts all come to no step. -/
theorem strictPreemptionHoldsOffTheOthers : Obligations.StrictPreemptionHoldsOffTheOthers := by
  intro s h a w v b off bw strict isr
  have held : s.heldOff = true := by simp [State.heldOff, strict, isr]
  refine ⟨fun i hi => ?_, runInput_busRead_of_heldOff held off bw, runInput_busWrite_of_heldOff held off bw v,
    runInput_hostStore_of_heldOff held w b⟩
  have rows : i ∈ commandRows h a w ++ (sequencerSteps h ++ timerSteps) := hi
  simp only [List.mem_append] at rows
  rcases rows with cmd | seq | timer
  · exact exec_commandRow_of_heldOff held i cmd
  · exact exec_sequencerStep_of_heldOff held i seq
  · exact exec_timerStep_of_heldOff held i timer

end Sys2Proof.Machine
end

section
/-! PROOF. The ring as a bounded queue (10_state.md R29; 40_ring_buffer.md R120, R121): PUT appends to the queued
cells, GET takes the oldest away, and both keep the ring's invariant. -/

namespace Sys2Proof.Machine

/-- The cell `i` places after the oldest. -/
def Ring.cell (r : Ring) (i : Nat) : Option Byte := r.mem[(r.rd + i) % r.cap]?.getD none

/-- The ring that a PUT of `b` leaves (40_ring_buffer.md R120). -/
def Ring.push (r : Ring) (b : Byte) : Ring :=
  { mem := r.mem.set r.wr (some b), rd := r.rd, wr := (r.wr + 1) % r.cap, cnt := r.cnt + 1 }

/-- The ring that a GET leaves (40_ring_buffer.md R121). -/
def Ring.pop (r : Ring) : Ring := { mem := r.mem, rd := (r.rd + 1) % r.cap, wr := r.wr, cnt := r.cnt - 1 }

theorem Ring.queued_eq (r : Ring) : r.queued = (List.range r.cnt).map r.cell := rfl

@[simp] theorem Ring.length_queued (r : Ring) : r.queued.length = r.cnt := by simp [Ring.queued_eq]

@[simp] theorem Ring.cap_push (r : Ring) (b : Byte) : (r.push b).cap = r.cap := List.length_set

@[simp] theorem Ring.cap_pop (r : Ring) : r.pop.cap = r.cap := rfl

/-! ### The cells after PUT and GET -/

/-- Below the capacity, different places have different cells. -/
theorem add_mod_ne {a i j n : Nat} (hi : i < n) (hj : j < n) (ne : i ≠ j) : (a + i) % n ≠ (a + j) % n := fun e =>
  ne (Nat.ModEq.eq_of_lt_of_lt (Nat.ModEq.add_left_cancel' a e) hi hj)

/-- PUT keeps every queued cell: the write index is the place after the newest. -/
theorem Ring.cell_push_of_lt {r : Ring} (inv : r.Inv) (room : r.cnt < r.cap) (b : Byte) {i : Nat} (hi : i < r.cnt) :
    (r.push b).cell i = r.cell i := by
  have ne : r.wr ≠ (r.rd + i) % r.cap := inv.wr_eq ▸ add_mod_ne room (hi.trans room) hi.ne'
  have len : (r.mem.set r.wr (some b)).length = r.cap := List.length_set
  simp only [Ring.cell, Ring.push, len, List.getElem?_set_ne ne]

/-- PUT's byte is the newest cell. -/
theorem Ring.cell_push_cnt {r : Ring} (inv : r.Inv) (b : Byte) : (r.push b).cell r.cnt = some b := by
  have lt : r.wr < r.mem.length := inv.wr_eq ▸ Nat.mod_lt _ inv.cap_pos
  have len : (r.mem.set r.wr (some b)).length = r.cap := List.length_set
  simp only [Ring.cell, Ring.push, len, ← inv.wr_eq]
  simp [List.getElem?_set_self lt]

/-- GET moves every cell one place nearer. -/
theorem Ring.cell_pop (r : Ring) (i : Nat) : r.pop.cell i = r.cell (i + 1) := by
  have e : ((r.rd + 1) % r.cap + i) % r.cap = (r.rd + (i + 1)) % r.cap := by rw [Nat.mod_add_mod]; congr 1; omega
  exact congrArg (fun n => r.mem[n]?.getD none) e

/-- The oldest cell is the one at the read index. -/
theorem Ring.cell_zero {r : Ring} (inv : r.Inv) : r.cell 0 = r.mem[r.rd]?.getD none := by
  simp [Ring.cell, Nat.mod_eq_of_lt inv.rd_lt]

/-! ### The invariant and the queue -/

/-- An empty ring, whatever its cells hold, as reset and OP_BUILD leave it. -/
theorem Ring.inv_of_empty {mem : List (Option Byte)} (pos : 0 < mem.length) : Ring.Inv ⟨mem, 0, 0, 0⟩ :=
  ⟨pos, pos, Nat.zero_le _, (Nat.zero_mod _).symm, nofun⟩

theorem Ring.Inv.push {r : Ring} (inv : r.Inv) (room : r.cnt < r.cap) (b : Byte) : (r.push b).Inv where
  cap_pos := (r.cap_push b).symm ▸ inv.cap_pos
  rd_lt := (r.cap_push b).symm ▸ inv.rd_lt
  cnt_le := (r.cap_push b).symm ▸ room
  wr_eq := by
    rw [Ring.cap_push]
    simp only [Ring.push, inv.wr_eq, Nat.mod_add_mod, Nat.add_assoc]
  cells i hi := by
    change ((r.push b).cell i).isSome = true
    rcases Nat.lt_succ_iff_lt_or_eq.mp hi with lt | rfl
    · rw [Ring.cell_push_of_lt inv room b lt]
      exact inv.cells i lt
    · simp [Ring.cell_push_cnt inv b]

theorem Ring.Inv.pop {r : Ring} (inv : r.Inv) (some_left : r.cnt ≠ 0) : r.pop.Inv where
  cap_pos := inv.cap_pos
  rd_lt := Nat.mod_lt _ inv.cap_pos
  cnt_le := (Nat.sub_le _ _).trans inv.cnt_le
  wr_eq := by
    change r.wr = ((r.rd + 1) % r.cap + (r.cnt - 1)) % r.cap
    rw [Nat.mod_add_mod, inv.wr_eq]
    congr 1
    omega
  cells i hi := by
    change (r.pop.cell i).isSome = true
    rw [Ring.cell_pop]
    have lt : i < r.cnt - 1 := hi
    exact inv.cells (i + 1) (by omega)

/-- A queued cell holds a byte, so GET never meets one without (10_state.md R47). -/
theorem Ring.Inv.oldest_isSome {r : Ring} (inv : r.Inv) (some_left : r.cnt ≠ 0) :
    (r.mem[r.rd]?.getD none).isSome = true :=
  Ring.cell_zero inv ▸ inv.cells 0 (Nat.pos_of_ne_zero some_left)

theorem Ring.queued_push {r : Ring} (inv : r.Inv) (room : r.cnt < r.cap) (b : Byte) :
    (r.push b).queued = r.queued ++ [some b] := by
  have old : (List.range r.cnt).map (r.push b).cell = (List.range r.cnt).map r.cell :=
    List.map_congr_left fun i hi => Ring.cell_push_of_lt inv room b (List.mem_range.mp hi)
  have cnt : (r.push b).cnt = r.cnt + 1 := rfl
  rw [Ring.queued_eq, cnt, List.range_succ, List.map_append, old, List.map_singleton, Ring.cell_push_cnt inv,
    Ring.queued_eq]

theorem Ring.queued_pop {r : Ring} (inv : r.Inv) (some_left : r.cnt ≠ 0) :
    r.queued = r.mem[r.rd]?.getD none :: r.pop.queued := by
  obtain ⟨n, hn⟩ := Nat.exists_eq_succ_of_ne_zero some_left
  have cnt : r.pop.cnt = n := by simp [Ring.pop, hn]
  have cells : r.pop.cell = r.cell ∘ Nat.succ := funext r.cell_pop
  rw [Ring.queued_eq, Ring.queued_eq, cnt, cells, hn, List.range_succ_eq_map, List.map_cons, List.map_map,
    Ring.cell_zero inv]

/-- Settles O34: PUT is `push` unless the ring is full, GET is `pop` unless it is empty, and the queued cells follow
them as a list does. -/
theorem ringIsABoundedFifo : Obligations.RingIsABoundedFifo := by
  intro r b inv
  have put : (r.put b = none ↔ r.queued.length = r.cap) ∧
      ∀ r', r.put b = some r' → r'.Inv ∧ r'.cap = r.cap ∧ r'.queued = r.queued ++ [some b] := by
    rcases Ring.put_cases r b with ⟨full, e⟩ | ⟨not_full, e⟩
    · simp [e, full]
    · have room : r.cnt < r.cap := inv.cnt_le.lt_of_ne not_full
      refine ⟨by simp [e, not_full], fun r' e' => ?_⟩
      obtain rfl : r.push b = r' := Option.some.inj (e.symm.trans e')
      exact ⟨inv.push room b, Ring.cap_push r b, Ring.queued_push inv room b⟩
  have empty : r.queued = [] ↔ r.cnt = 0 := by rw [← List.length_eq_zero_iff, Ring.length_queued]
  refine ⟨put.1, put.2, ?_⟩
  rcases Ring.get_cases r with ⟨none_left, e⟩ | ⟨some_left, no_value, _⟩ | ⟨c, some_left, oldest, e⟩
  · simp [e, empty, none_left]
  · simpa [no_value] using inv.oldest_isSome some_left
  · refine ⟨by simp [e, empty, some_left], fun c' r' e' => ?_, by simp [e]⟩
    obtain ⟨rfl, rfl⟩ : c = c' ∧ r.pop = r' := GetResult.ok.inj (e.symm.trans e')
    exact ⟨inv.pop some_left, Ring.cap_pop r, oldest ▸ Ring.queued_pop inv some_left⟩

end Sys2Proof.Machine
end

section
/-! PROOF. A word that decodes to a command is that command's own word (30_encoding.md R92, R98), so a bus write of a
CMD register is the host's command, whatever row the decoder names. -/

namespace Sys2Proof

/-- A command word is its opcode, its reserved bits and its slave address in a row (30_encoding.md R92). -/
theorem word_eq_append_three (w : Word) :
    w.extractLsb' 28 4 ++ w.extractLsb' 7 21 ++ w.extractLsb' 0 7 = w := by
  ext i hi
  simp only [BitVec.getElem_append, BitVec.getElem_extractLsb']
  grind

/-- A command word is its opcode and all its other bits in a row (30_encoding.md R92). -/
theorem word_eq_append_two (w : Word) : w.extractLsb' 28 4 ++ w.extractLsb' 0 28 = w := by
  ext i hi
  simp only [BitVec.getElem_append, BitVec.getElem_extractLsb']
  grind

theorem word_of_decodeCommand {w a1 : Word} {k : Command} (e : decodeCommand w a1 = .ok k) : k.word = w := by
  have three := word_eq_append_three w
  have two := word_eq_append_two w
  simp only [decodeCommand, ne_eq, ite_not] at e
  split_ifs at e with op1 bits op2 bits op34 bits size op3 <;> cases e
  · rw [op1, bits] at three
    exact three
  · rw [op2, bits] at two
    exact two
  · rw [op3, bits] at two
    exact two
  · rw [op34.resolve_left op3, bits] at two
    exact two

/-- A READ or WRITE that decodes has a size below 2^31 (30_encoding.md R95, R98). -/
theorem size_of_decodeCommand {w a1 : Word} {k : Command} (e : decodeCommand w a1 = .ok k)
    (transfer : k = .readC ∨ k = .writeC) : a1.toNat < 2 ^ 31 := by
  by_contra big
  have bit : a1.getLsbD 31 = true := (getLsbD_31_iff a1).mpr (Nat.le_of_not_lt big)
  rw [← word_of_decodeCommand e] at e
  rcases transfer with rfl | rfl
  · simp [decodeCommand_read, bit] at e
  · simp [decodeCommand_write, bit] at e

namespace Machine

/-- A command row is the host's write of the command's word (45_lifecycle.md R289). -/
theorem exec_toInstr (h : Nat) (k : Command) (s : State) : exec (k.toInstr h) s = .next (s.hostCmd h k.word) := by
  cases k <;> rfl

/-- A bus write of a CMD register is the host's command (45_lifecycle.md R289, R291). -/
theorem runInput_busWrite_cmd {off : BitVec 12} {bw : BusWidth} {h : Nat} (reach : cmdPortOf off bw = some h) (v : Word)
    (s : State) : runInput (.busWrite off bw v) s = .next (s.hostCmd h v) := by
  cases hd : decodeCommand v (s.port h).arg1 with
  | error x => simp [runInput, reach, decode, State.arg1Of, hd, Except.map, exec, execIllegalCommand]
  | ok k => simp [runInput, reach, decode, State.arg1Of, hd, Except.map, exec_toInstr, word_of_decodeCommand hd]

/-- Every other bus write is no command (10_state.md R42). -/
theorem runInput_busWrite_other {off : BitVec 12} {bw : BusWidth} (reach : cmdPortOf off bw = none) (v : Word)
    (s : State) : runInput (.busWrite off bw v) s = .next (s.busWrite off bw v) := by
  simp [runInput, reach]

end Machine

end Sys2Proof
end

section
/-! PROOF. The parts of the invariant under the changes that steps make: the ports and the lifecycle, the timers, the
counts, FAULT (10_state.md R24, R27, R32, R40; 41_timeout_timer.md R140 to R142). -/

namespace Sys2Proof.Machine

/-! ### Ports -/

/-- The phases of a command in flight, but for OPEN's build (10_state.md R24). -/
abbrev Phase.transfers (p : Phase) : Prop := p ≠ .idle ∧ p ≠ .opBuild

/-- Every port meets the invariant: one that does not exist reads as a reset port. -/
theorem State.Inv.port {s : State} (inv : s.Inv) (h : Nat) : (s.port h).Inv := by
  by_cases hh : h < s.ports.length
  · exact inv.ports _ (State.port_mem hh)
  · simp [State.port_of_not_hasPort hh, Port.Inv, Port.reset]

/-- The lifecycle's invariant speaks of the ports only as far as they are building. -/
theorem State.LifeInv.of_builders {s t : State} (inv : s.LifeInv) (life : t.life = s.life)
    (same : ∀ j, (t.port j).phase = .opBuild ↔ (s.port j).phase = .opBuild) : t.LifeInv where
  opened_iff := by rw [life]; exact inv.opened_iff
  build_opening j b := by rw [life]; exact inv.build_opening j ((same j).mp b)
  build_unique j k bj bk := inv.build_unique j k ((same j).mp bj) ((same k).mp bk)
  opening_build o := by
    obtain ⟨j, b⟩ := inv.opening_build (life ▸ o)
    exact ⟨j, (same j).mpr b⟩

/-- While no port builds, the block is not Opening (45_lifecycle.md R270). -/
theorem State.LifeInv.of_no_builder {s : State} (opened : s.life.opened = true ↔ s.life.lstate ≠ .closed)
    (not_opening : s.life.lstate ≠ .opening) (none : ∀ j, (s.port j).phase ≠ .opBuild) : s.LifeInv where
  opened_iff := opened
  build_opening j b := absurd b (none j)
  build_unique j _ b := absurd b (none j)
  opening_build o := absurd o not_opening

theorem State.LifeInv.no_builder {s : State} (inv : s.LifeInv) (not_opening : s.life.lstate ≠ .opening) (j : Nat) :
    (s.port j).phase ≠ .opBuild := fun b => not_opening (inv.build_opening j b)

/-- An update of one port keeps the invariant when the port keeps its own and goes on building or not building. -/
theorem State.Inv.updPort {s : State} (inv : s.Inv) {h : Nat} {f : Port → Port} (own : (f (s.port h)).Inv)
    (build : (f (s.port h)).phase = .opBuild ↔ (s.port h).phase = .opBuild) : (s.updPort h f).Inv :=
  { inv with
    ports_pos := by simpa using inv.ports_pos
    ports_le := by simpa using inv.ports_le
    ports := forall_modify inv.ports fun p _ at_h => State.port_eq_of_getElem? at_h ▸ own
    life := inv.life.of_builders rfl fun j => by
      rw [State.port_updPort]
      split_ifs with here
      · rw [here.1, build]
      · rfl
    line := { inv.line with } }

/-- A port that keeps its phase and its busy bit. -/
theorem State.Inv.port_keeps {s : State} (inv : s.Inv) {h : Nat} {f : Port → Port}
    (phase : (f (s.port h)).phase = (s.port h).phase) (busy : (f (s.port h)).busy = (s.port h).busy) :
    (s.updPort h f).Inv :=
  inv.updPort (by rw [Port.Inv, phase, busy]; exact inv.port h) (by rw [phase])

/-- A port that goes on with its transfer. -/
theorem State.Inv.port_continues {s : State} (inv : s.Inv) {h : Nat} {f : Port → Port}
    (before : (s.port h).phase.transfers) (after : (f (s.port h)).phase.transfers)
    (busy : (f (s.port h)).busy = (s.port h).busy) : (s.updPort h f).Inv := by
  have own := inv.port h
  simp only [Port.Inv, before.1, false_iff] at own
  exact inv.updPort (by simp [Port.Inv, after.1, busy, own]) (iff_of_false after.2 before.2)

/-- A port that starts a transfer, from any phase but OP_BUILD. -/
theorem State.Inv.port_starts {s : State} (inv : s.Inv) {h : Nat} {f : Port → Port}
    (before : (s.port h).phase ≠ .opBuild) (after : (f (s.port h)).phase.transfers)
    (busy : (f (s.port h)).busy = true) : (s.updPort h f).Inv :=
  inv.updPort (by simp [Port.Inv, after.1, busy]) (iff_of_false after.2 before)

/-- A port that finishes, from any phase but OP_BUILD (45_lifecycle.md R290). -/
theorem State.Inv.port_finishes {s : State} (inv : s.Inv) {h : Nat} {f : Port → Port}
    (before : (s.port h).phase ≠ .opBuild) (after : (f (s.port h)).phase = .idle)
    (busy : (f (s.port h)).busy = false) : (s.updPort h f).Inv :=
  inv.updPort (by simp [Port.Inv, after, busy]) (by simp [after, before])

/-! ### Timers -/

theorem Timer.inv_reset : Timer.reset.Inv := by simp [Timer.Inv, Timer.reset]

theorem Timer.inv_arm (t : Timer) (n : Word) : (t.arm n).Inv := by
  by_cases hn : n = 0#32 <;> simp [Timer.Inv, Timer.arm, hn]

theorem Timer.Inv.tick {t : Timer} (inv : t.Inv) : t.tick.Inv := by
  obtain ⟨ticks, expired⟩ := inv
  simp only [Timer.tick]
  split_ifs with armed last
  · simp [Timer.Inv, last]
  · exact ⟨by simp [armed, last], fun x => absurd (expired x) (by simp [armed])⟩
  · exact ⟨ticks, expired⟩

/-- A callback takes the expiry away (41_timeout_timer.md R145). -/
theorem Timer.Inv.taken {t : Timer} (inv : t.Inv) : Timer.Inv { t with exp := false } := ⟨inv.1, nofun⟩

theorem Port.tick_phase (p : Port) : p.tick.phase = p.phase := by
  simp only [Port.tick]
  split <;> rfl

theorem Port.tick_busy (p : Port) : p.tick.busy = p.busy := by
  simp only [Port.tick]
  split <;> rfl

/-! ### Counts and FAULT -/

/-- One byte moved: the count stays below its size (10_state.md R32). -/
theorem pred_le_of_le {c : Word} {n : Nat} (left : c ≠ 0#32) (le : c.toNat ≤ n) : (c - 1#32).toNat ≤ n := by
  have : (c - 1#32).toNat = c.toNat - 1 := by bv_omega
  omega

/-- Raising one of the three defined bits leaves FAULT's reserved bits 0 (10_state.md R40). -/
theorem faults_or_lt {f k : Word} (lt : f.toNat < 8) (hk : k.toNat < 8) : (f ||| k).toNat < 8 := by
  rw [BitVec.toNat_or]
  exact Nat.or_lt_two_pow (n := 3) lt hk

end Sys2Proof.Machine
end

section
/-! PROOF. The host's commands keep the invariant (45_lifecycle.md R271, R274, R289; 42_read_engine.md R171;
43_write_engine.md R201). -/

namespace Sys2Proof.Machine

/-- The invariant says nothing of the wake signals, DROPCNT and the model's own fields but `call`. -/
theorem State.Inv.unbound {s : State} (inv : s.Inv) (rsem wsem : Bool) (dropcnt busData : Word) (sched : List Input)
    (history : List Record) :
    State.Inv { s with rsem := rsem, wsem := wsem, dropcnt := dropcnt, busData := busData, sched := sched,
                       history := history } :=
  { inv with life := { inv.life with }, line := { inv.line with } }

/-! ### Commands -/

/-- A port that takes a command is idle (10_state.md R24). -/
theorem State.Inv.idle_of_not_busy {s : State} (inv : s.Inv) {h : Nat} (free : (s.port h).busy = false) :
    (s.port h).phase = .idle := (inv.port h).mpr free

/-- The latch and what follows it on the same port are one update. -/
theorem State.updPort_latched (s : State) (h : Nat) (w : Word) (f : Port → Port) :
    (s.latched h w).updPort h f = s.updPort h fun q => f { q with lcmd := w, ovr := false, busy := true } := by
  simp [State.latched, State.updPort]

theorem State.Inv.latched_finish {s : State} (inv : s.Inv) {h : Nat} (free : (s.port h).busy = false) (w r : Word) :
    ((s.latched h w).finish h r).Inv := by
  rw [State.finish, State.updPort_latched]
  exact inv.port_finishes (by simp [inv.idle_of_not_busy free]) rfl rfl

theorem State.Inv.latched_goto {s : State} (inv : s.Inv) {h : Nat} (free : (s.port h).busy = false) (w : Word)
    {p : Phase} (hp : p.transfers) : ((s.latched h w).goto h p).Inv := by
  rw [State.goto, State.updPort_latched]
  exact inv.port_starts (by simp [inv.idle_of_not_busy free]) hp rfl

/-- A Closed block becomes Opening with one port that builds it (45_lifecycle.md R271). -/
theorem State.Inv.opens {s : State} (inv : s.Inv) {h : Nat} (hh : h < s.ports.length) {f : Port → Port}
    (closed : s.life.lstate = .closed) (phase : (f (s.port h)).phase = .opBuild) (busy : (f (s.port h)).busy = true) :
    State.Inv { s.updPort h f with life := { opened := true, lstate := .opening } } :=
  have builders : ∀ j, ((s.updPort h f).port j).phase = .opBuild → j = h := fun j b => by
    by_contra ne
    rw [State.port_updPort_ne ne] at b
    exact inv.life.no_builder (by simp [closed]) j b
  { inv with
    ports_pos := by simpa using inv.ports_pos
    ports_le := by simpa using inv.ports_le
    ports := forall_modify inv.ports fun p _ at_h => by
      simp [← State.port_eq_of_getElem? at_h, Port.Inv, phase, busy]
    life := {
      opened_iff := by simp
      build_opening := fun _ _ => rfl
      build_unique := fun j k bj bk => (builders j bj).trans (builders k bk).symm
      opening_build := fun _ => ⟨h, (congrArg Port.phase (State.port_updPort_self hh f)).trans phase⟩ }
    line := { inv.line with pen_iff := by simpa [closed] using inv.line.pen_iff } }

theorem State.Inv.latched_opens {s : State} (inv : s.Inv) {h : Nat} (hh : h < s.ports.length)
    (closed : s.life.lstate = .closed) (w : Word) :
    State.Inv { (s.latched h w).goto h .opBuild with life := { opened := true, lstate := .opening } } := by
  rw [State.goto, State.updPort_latched]
  exact inv.opens hh closed rfl rfl

/-- OPEN's body (45_lifecycle.md R271). -/
theorem State.Inv.openIssue {s : State} (inv : s.Inv) {h : Nat} (hh : h < s.ports.length)
    (free : (s.port h).busy = false) (w : Word) : ((s.latched h w).openIssue h).Inv := by
  rcases State.openIssue_cases (s.latched h w) h with ⟨_, e⟩ | ⟨not_opened, e⟩ <;> rw [e]
  · exact (inv.latched_finish free w 0#32).unbound ..
  · have closed : s.life.lstate = .closed := by
      by_contra not_closed
      simp [inv.life.opened_iff.mpr not_closed] at not_opened
    have opens := inv.latched_opens hh closed w
    exact { opens with
      life := { opens.life with }
      line := { opens.line with }
      faults := by
        dsimp only
        split_ifs
        · exact inv.faults
        · exact faults_or_lt inv.faults (by decide) }

/-- CLOSE's body (45_lifecycle.md R274). -/
theorem State.Inv.closeIssue {s : State} (inv : s.Inv) {h : Nat} (free : (s.port h).busy = false) (w : Word) :
    ((s.latched h w).closeIssue h).Inv := by
  have done := inv.latched_finish free w 0#32
  rcases State.closeIssue_cases (s.latched h w) h with ⟨_, e⟩ | ⟨is_open, e⟩ <;> rw [e]
  · exact done.unbound ..
  · have not_opening : s.life.lstate ≠ .opening := by simp [show s.life.lstate = .opened from is_open]
    exact { done with
      life := .of_no_builder (by simp) (by simp) (done.life.no_builder not_opening)
      rtimer := Timer.inv_reset
      pwtimer := Timer.inv_reset
      faults := by
        dsimp only
        split_ifs
        · exact faults_or_lt inv.faults (by decide)
        · exact inv.faults
      line := {
        pen_iff := by simp
        ien_eq := rfl
        pim_eq := rfl
        off_rreq := fun _ => rfl
        off_treq := fun _ => rfl
        off_pris := fun _ => rfl
        rreq_value := nofun
        addr_eq := inv.line.addr_eq } }

/-- READ's body, for a size that decodes (42_read_engine.md R171, 30_encoding.md R95). -/
theorem State.Inv.readIssue {s : State} (inv : s.Inv) {h : Nat} (hh : h < s.ports.length)
    (free : (s.port h).busy = false) (size : (s.port h).arg1.toNat < 2 ^ 31) (w : Word) :
    ((s.latched h w).readIssue h).Inv := by
  rcases State.readIssue_cases (s.latched h w) h with ⟨_, e⟩ | ⟨_, _, e⟩ | ⟨_, _, e⟩ <;> rw [e]
  · exact (inv.latched_finish free w _).unbound ..
  · exact (inv.latched_finish free w _).unbound ..
  · have starts := inv.latched_goto free w (p := .rdLoop) (by decide)
    exact { starts with
      life := { starts.life with }
      line := { starts.line with }
      read_le := le_rfl
      read_size := by simpa only [State.latched_port_self hh] using size
      rtimer := by
        dsimp only
        split_ifs
        · exact inv.rtimer
        · exact Timer.inv_arm _ _
      faults := by
        dsimp only
        split_ifs
        · exact faults_or_lt inv.faults (by decide)
        · exact inv.faults }

/-- WRITE's body, for a size that decodes (43_write_engine.md R201, 30_encoding.md R95). -/
theorem State.Inv.writeIssue {s : State} (inv : s.Inv) {h : Nat} (hh : h < s.ports.length)
    (free : (s.port h).busy = false) (size : (s.port h).arg1.toNat < 2 ^ 31) (w : Word) :
    ((s.latched h w).writeIssue h).Inv := by
  rcases State.writeIssue_cases (s.latched h w) h with ⟨r, e, _⟩ | ⟨_, _, _, e⟩ <;> rw [e]
  · exact (inv.latched_finish free w r).unbound ..
  · have starts := inv.latched_goto free w (p := .wrPendCheck) (by decide)
    exact { starts with
      life := { starts.life with }
      line := { starts.line with }
      write_le := le_rfl
      write_size := by simpa only [State.latched_port_self hh] using size }

/-- A host's write of a command word (45_lifecycle.md R289, R291). -/
theorem State.Inv.hostCmd {s : State} (inv : s.Inv) (h : Nat) (w : Word) : (s.hostCmd h w).Inv := by
  rcases State.hostCmd_cases s h w with ⟨_, e⟩ | ⟨_, _, e⟩ | ⟨_, _, _, e⟩ | ⟨may, free, k, decodes, e⟩ <;> rw [e]
  · exact inv
  · exact inv.port_keeps rfl rfl
  · refine (inv.port_keeps ?_ ?_).unbound .. <;> rfl
  · obtain ⟨hh, _⟩ := (State.hostMay_iff s h).mp may
    cases k with
    | openC _ => exact inv.openIssue hh free w
    | closeC => exact inv.closeIssue free w
    | readC => exact inv.readIssue hh free (size_of_decodeCommand decodes (.inl rfl)) w
    | writeC => exact inv.writeIssue hh free (size_of_decodeCommand decodes (.inr rfl)) w

end Sys2Proof.Machine
end

section
/-! PROOF. The sequencer steps, the interrupt handler, the timers and the peripheral's events keep the invariant. -/

namespace Sys2Proof.Machine

/-! ### Sequencer steps -/

/-- OP_BUILD: the one building port finishes, and the block is Open (45_lifecycle.md R272). -/
theorem State.Inv.opBuild {s t : State} (inv : s.Inv) {h : Nat} (e : execOpBuild h s = .next t) : t.Inv := by
  rcases execOpBuild_cases e with rfl | ⟨_, building, rfl⟩
  · exact inv
  · have none_left : ∀ (r : Word) (j : Nat), ((s.finish h r).port j).phase ≠ .opBuild := fun r j => by
      rw [State.finish, State.port_updPort]
      split_ifs with here
      · simp
      · exact fun b => here ⟨inv.life.build_unique j h b building, State.lt_of_phase (by simp [building])⟩
    have opened : s.life.opened = true :=
      inv.life.opened_iff.mpr (by simp [inv.life.build_opening h building])
    exact { inv with
      ports_pos := by simpa using inv.ports_pos
      ports_le := by simpa using inv.ports_le
      ports := forall_modify inv.ports fun _ _ _ => by simp [Port.Inv]
      life := .of_no_builder (by simp [opened]) (by simp) (none_left _)
      ring := Ring.inv_of_empty inv.ring.cap_pos
      read_le := le_rfl
      read_size := by simp [ReadXfer.reset]
      write_le := le_rfl
      write_size := by simp [WriteXfer.reset]
      rtimer := Timer.inv_reset
      pwtimer := Timer.inv_reset
      line := {
        pen_iff := by simp
        ien_eq := rfl
        pim_eq := rfl
        off_rreq := nofun
        off_treq := nofun
        off_pris := nofun
        rreq_value := nofun
        addr_eq := rfl } }

/-- A port goes from one phase of its transfer to another. -/
theorem State.Inv.continues {s : State} (inv : s.Inv) {h : Nat} {p q : Phase} (before : (s.port h).phase = p)
    (hp : p.transfers) (hq : q.transfers) : (s.goto h q).Inv :=
  inv.port_continues (before ▸ hp) hq rfl

/-- A sequencer step that goes from one phase of a transfer to another, and moves nothing else the invariant speaks
of. -/
theorem State.Inv.goes_on {s : State} (inv : s.Inv) {h : Nat} {p q : Phase} (before : (s.port h).phase = p)
    (hp : p.transfers) (hq : q.transfers) (rsem wsem : Bool) (history : List Record) :
    State.Inv { s.goto h q with rsem := rsem, wsem := wsem, history := history } :=
  (inv.continues before hp hq).unbound ..

/-- RD_LOOP (42_read_engine.md R172). -/
theorem State.Inv.rdLoop {s t : State} (inv : s.Inv) {h : Nat} (e : execRdLoop h s = .next t) : t.Inv := by
  rcases execRdLoop_cases e with rfl | ⟨_, phase, ⟨_, rfl⟩ | ⟨_, _, rfl⟩ | ⟨b, left, some_left, _, _, rfl⟩⟩
  · exact inv
  · exact inv.goes_on phase (by decide) (by decide) ..
  · have waits := inv.continues (q := if s.cfg.readTimeout = 0#32 then .rdExit else .rdWait) phase
      (by decide) (by split_ifs <;> decide)
    exact { waits with life := { waits.life with }, line := { waits.line with } }
  · exact { inv with
      life := { inv.life with }
      line := { inv.line with }
      ring := inv.ring.pop some_left
      read_le := pred_le_of_le left inv.read_le
      hmem := Memory.wf_write inv.hmem (BitVec.isLt _) }

/-- RD_WOKEN (42_read_engine.md R175). -/
theorem State.Inv.rdWoken {s t : State} (inv : s.Inv) {h : Nat} (e : execRdWoken h s = .next t) : t.Inv := by
  rcases execRdWoken_cases e with rfl | ⟨_, phase, rfl⟩
  · exact inv
  · have goes_on := inv.continues (q := if s.rd.timedOut then .rdExit else .rdLoop) phase
      (by decide) (by split_ifs <;> decide)
    exact { goes_on with life := { goes_on.life with }, line := { goes_on.line with } }

/-- RD_EXIT (42_read_engine.md R176). -/
theorem State.Inv.rdExit {s t : State} (inv : s.Inv) {h : Nat} (e : execRdExit h s = .next t) : t.Inv := by
  rcases execRdExit_cases e with rfl | ⟨_, phase, rfl⟩
  · exact inv
  · have done : (s.finish h (s.rd.size - s.rd.count)).Inv := inv.port_finishes (by simp [phase]) rfl rfl
    exact { done with life := { done.life with }, line := { done.line with }, rtimer := Timer.inv_reset }

/-- WR_PEND_CHECK (43_write_engine.md R202). -/
theorem State.Inv.wrPendCheck {s t : State} (inv : s.Inv) {h : Nat} (e : execWrPendCheck h s = .next t) : t.Inv := by
  rcases execWrPendCheck_cases e with rfl | ⟨_, phase, ways⟩
  · exact inv
  have drains := inv.continues (q := .wrDrain) phase (by decide) (by decide)
  rcases ways with ⟨_, rfl⟩ | ⟨_, _, _, rfl⟩ | ⟨v, _, _, left, _, _, rfl⟩
  · exact drains.unbound ..
  · exact { drains with life := { drains.life with }, line := { drains.line with }, pwtimer := s.pwtimer.inv_arm _ }
  · exact { drains with
      life := { drains.life with }
      line := { drains.line with off_treq := fun _ => rfl }
      pwtimer := Timer.inv_reset
      write_le := pred_le_of_le left inv.write_le }

/-- WR_CHECK (43_write_engine.md R204). -/
theorem State.Inv.wrCheck {s t : State} (inv : s.Inv) {h : Nat} (e : execWrCheck h s = .next t) : t.Inv := by
  rcases execWrCheck_cases e with rfl | ⟨_, phase, ways⟩
  · exact inv
  rcases ways with ⟨_, rfl⟩ | ⟨_, _, rfl⟩ | ⟨_, _, rfl⟩
  · exact inv.goes_on phase (by decide) (by decide) ..
  · exact inv.goes_on phase (by decide) (by decide) ..
  · refine (inv.port_continues (phase ▸ by decide) ?_ ?_).unbound ..
    · simp [Phase.transfers]
    · rfl

/-- WR_EXIT (43_write_engine.md R207). -/
theorem State.Inv.wrExit {s t : State} (inv : s.Inv) {h : Nat} (e : execWrExit h s = .next t) : t.Inv := by
  rcases execWrExit_cases e with rfl | ⟨_, phase, rfl⟩
  · exact inv
  · have done : (s.updPort h _).Inv := inv.port_finishes (f := fun q => { q with
      wwaitRem := 0#32, wwaitInf := false, result := s.wr.size - s.wr.count, phase := .idle, busy := false })
      (by simp [phase]) rfl rfl
    exact { done with life := { done.life with }, line := { done.line with }, write_le := Nat.zero_le _ }

/-! ### The interrupt handler -/

theorem State.Inv.afterSnapshot {s : State} (inv : s.Inv) : s.afterSnapshot.Inv :=
  { inv with
    life := { inv.life with }
    line := { inv.line with off_pris := fun off => by simp [inv.line.off_pris off] } }

theorem State.Inv.afterRx {s : State} (inv : s.Inv) (b : Byte) : (s.afterRx b).Inv :=
  { inv with
    life := { inv.life with }
    line := { inv.line with off_rreq := fun _ => rfl, rreq_value := nofun }
    ring := by
      dsimp only [State.afterRx]
      split_ifs with full
      · exact inv.ring
      · exact inv.ring.push (inv.ring.cnt_le.lt_of_ne full) b }

/-- The data register takes a byte only into a pending request (44_interrupt_handler.md R243). -/
theorem State.Inv.writeData {s : State} (inv : s.Inv) (v : Byte) :
    State.Inv { s with periph := s.periph.writeData v } := by
  rw [Periph.writeData_eq]
  split_ifs
  · exact { inv with life := { inv.life with }, line := { inv.line with off_treq := fun _ => rfl } }
  · exact inv

/-- PRODUCER_STEP (43_write_engine.md R210). -/
theorem State.Inv.produce {s t : State} (inv : s.Inv) {agent : Agent} {port : Option Nat}
    (e : s.produce agent port = .ok t) : t.Inv := by
  rcases State.produce_eq_ok e with ⟨_, rfl⟩ | ⟨v, left, _, _, rfl⟩
  · exact { inv with life := { inv.life with }, line := { inv.line with }, pwtimer := s.pwtimer.inv_arm _ }
  · have sent := inv.writeData v
    exact { sent with
      life := { sent.life with }
      line := { sent.line with }
      write_le := pred_le_of_le left inv.write_le }

/-- ISR_SERVICE (44_interrupt_handler.md R246). -/
theorem State.Inv.isrService {s t : State} (inv : s.Inv) (e : execIsrService s = .next t) : t.Inv := by
  rcases execIsrService_cases e with rfl | ⟨_, u, received, produced⟩
  · exact inv
  have inv_u : u.Inv := by
    rcases received with ⟨_, rfl⟩ | ⟨b, _, _, rfl⟩
    · exact inv.afterSnapshot
    · exact inv.afterSnapshot.afterRx b
  rcases produced with ⟨_, rfl⟩ | ⟨_, e⟩
  · exact inv_u
  · exact inv_u.produce e

/-! ### Timers, TICK and the peripheral's events -/

/-- TICK (41_timeout_timer.md R142). -/
theorem State.Inv.tick {s t : State} (inv : s.Inv) (e : execTick s = .next t) : t.Inv := by
  rcases execTick_cases e with rfl | ⟨_, rfl⟩
  · exact inv
  · have ticked : ∀ j, (s.ports.map Port.tick).getD j Port.reset = (s.port j).tick := fun j =>
      List.getD_map (l := s.ports) (n := j) (d := Port.reset) Port.tick
    exact { inv with
      ports_pos := by simpa using inv.ports_pos
      ports_le := by simpa using inv.ports_le
      ports := fun p hp => by
        obtain ⟨q, hq, rfl⟩ := List.mem_map.mp hp
        simpa only [Port.Inv, Port.tick_phase, Port.tick_busy] using inv.ports q hq
      life := inv.life.of_builders rfl fun j => by rw [← Port.tick_phase (s.port j), ← ticked j]; rfl
      line := { inv.line with }
      rtimer := inv.rtimer.tick
      pwtimer := inv.pwtimer.tick }

/-- RT_EXPIRE (41_timeout_timer.md R145). -/
theorem State.Inv.rtExpire {s t : State} (inv : s.Inv) (e : execRtExpire s = .next t) : t.Inv := by
  rcases execRtExpire_cases e with rfl | ⟨_, _, rfl⟩
  · exact inv
  · exact { inv with life := { inv.life with }, line := { inv.line with }, rtimer := inv.rtimer.taken }

/-- PW_EXPIRE (41_timeout_timer.md R146). -/
theorem State.Inv.pwExpire {s t : State} (inv : s.Inv) (e : execPwExpire s = .next t) : t.Inv := by
  rcases execPwExpire_cases e with rfl | ⟨_, _, rfl⟩
  · exact inv
  · have sent := inv.writeData 0x00#8
    rw [Periph.writeData_eq] at sent
    exact { sent with life := { sent.life with }, line := { sent.line with }, pwtimer := Timer.inv_reset }

/-- RX_ARRIVE (44_interrupt_handler.md R240). -/
theorem State.Inv.rxArrive {s t : State} (inv : s.Inv) {b : Byte} (e : execRxArrive b s = .next t) : t.Inv := by
  rcases execRxArrive_cases e with rfl | ⟨on, _, rfl⟩
  · exact inv
  · exact { inv with
      life := { inv.life with }
      line := { inv.line with
        off_rreq := fun off => absurd on (by simp [show s.periph.pen = false from off])
        off_pris := fun off => absurd on (by simp [show s.periph.pen = false from off])
        rreq_value := fun _ => rfl } }

/-- TX_REQUEST (44_interrupt_handler.md R241). -/
theorem State.Inv.txRequest {s t : State} (inv : s.Inv) (e : execTxRequest s = .next t) : t.Inv := by
  rcases execTxRequest_cases e with rfl | ⟨on, _, rfl⟩
  · exact inv
  · exact { inv with
      life := { inv.life with }
      line := { inv.line with
        off_treq := fun off => absurd on (by simp [show s.periph.pen = false from off])
        off_pris := fun off => absurd on (by simp [show s.periph.pen = false from off]) } }

/-- OTHER_CAUSE (44_interrupt_handler.md R244). -/
theorem State.Inv.otherCause {s t : State} (inv : s.Inv) {k : Nat} (e : execOtherCause k s = .next t) : t.Inv := by
  rcases execOtherCause_cases e with rfl | ⟨on, _, _, rfl⟩
  · exact inv
  · exact { inv with
      life := { inv.life with }
      line := { inv.line with
        off_pris := fun off => absurd on (by simp [show s.periph.pen = false from off]) } }

end Sys2Proof.Machine
end

section
/-! PROOF. Every step keeps the invariant: every instruction, then every entry of the schedule. -/

namespace Sys2Proof.Machine

/-! ### Every instruction -/

/-- An issue body stands in no state of the invariant: its port would be busy and IDLE at once (10_state.md R24). -/
theorem State.Inv.not_issuing {s : State} (inv : s.Inv) {h : Nat} {want : Command → Bool} :
    ¬ s.issuing h want = true := fun at_issue => by
  obtain ⟨_, busy, idle⟩ := State.issuing_port at_issue
  simp [(inv.port h).mp idle] at busy

theorem State.Inv.exec_next {s t : State} (inv : s.Inv) {i : Instr} (e : exec i s = .next t) : t.Inv := by
  cases i with
  | openCmd h a => exact Host.Outcome.next.inj e ▸ inv.hostCmd h _
  | closeCmd h => exact Host.Outcome.next.inj e ▸ inv.hostCmd h _
  | readCmd h => exact Host.Outcome.next.inj e ▸ inv.hostCmd h _
  | writeCmd h => exact Host.Outcome.next.inj e ▸ inv.hostCmd h _
  | illegalCommand h w =>
    rcases execIllegalCommand_cases e with rfl | ⟨_, _, rfl⟩ | ⟨_, _, _, rfl⟩
    · exact inv
    · exact inv.port_keeps rfl rfl
    · refine (inv.port_keeps ?_ ?_).unbound .. <;> rfl
  | openIssue h => exact (execOpenIssue_cases e).elim (· ▸ inv) fun x => absurd x.1 inv.not_issuing
  | closeIssue h => exact (execCloseIssue_cases e).elim (· ▸ inv) fun x => absurd x.1 inv.not_issuing
  | readIssue h => exact (execReadIssue_cases e).elim (· ▸ inv) fun x => absurd x.1 inv.not_issuing
  | writeIssue h => exact (execWriteIssue_cases e).elim (· ▸ inv) fun x => absurd x.1 inv.not_issuing
  | opBuild h => exact inv.opBuild e
  | rdLoop h => exact inv.rdLoop e
  | rdWaitWake h =>
    rcases execRdWaitWake_cases e with rfl | ⟨_, phase, _, rfl⟩
    · exact inv
    · exact inv.goes_on phase (by decide) (by decide) ..
  | rdWoken h => exact inv.rdWoken e
  | rdExit h => exact inv.rdExit e
  | wrPendCheck h => exact inv.wrPendCheck e
  | wrDrain h =>
    rcases execWrDrain_cases e with rfl | ⟨_, phase, rfl⟩
    · exact inv
    · exact inv.goes_on phase (by decide) (by decide) ..
  | wrCheck h => exact inv.wrCheck e
  | wrWaitWake h =>
    rcases execWrWaitWake_cases e with rfl | ⟨_, phase, _, rfl⟩
    · exact inv
    · exact inv.goes_on phase (by decide) (by decide) ..
  | wrWaitTimeout h =>
    rcases execWrWaitTimeout_cases e with rfl | ⟨_, phase, _, rfl⟩
    · exact inv
    · exact inv.goes_on phase (by decide) (by decide) ..
  | wrExit h => exact inv.wrExit e
  | isrService => exact inv.isrService e
  | rtExpire => exact inv.rtExpire e
  | pwExpire => exact inv.pwExpire e
  | tick => exact inv.tick e
  | rxArrive b => exact inv.rxArrive e
  | txRequest => exact inv.txRequest e
  | otherCause k => exact inv.otherCause e
  | put b => exact (execPut_cases e).elim (· ▸ inv) fun x => absurd x.1 (by simp [inv.call])
  | get => exact (execGet_cases e).elim (· ▸ inv) fun ⟨_, x, _⟩ => absurd x (by simp [inv.call])
  | producerStep => exact (execProducerStep_cases e).elim (· ▸ inv) fun ⟨_, x, _⟩ => absurd x (by simp [inv.call])

/-! ### Every entry of the schedule -/

/-- An operand write on a port (10_state.md R25). -/
theorem State.Inv.argWrite {s : State} (inv : s.Inv) (h : Nat) {f : Port → Port} (phase : ∀ p, (f p).phase = p.phase)
    (busy : ∀ p, (f p).busy = p.busy) : (s.argWrite h f).Inv := by
  rw [State.argWrite]
  split_ifs
  · exact inv.port_keeps rfl rfl
  · exact inv.port_keeps (phase _) (busy _)

/-- A write of CMD is the host's command (45_lifecycle.md R289). -/
theorem State.writeReg_cmd {s : State} (free : s.heldOff = false) (h : Nat) (v : Word) :
    s.writeReg (.cmd h) v = s.hostCmd h v := by
  simp [State.writeReg, State.hostCmd, State.hostMay, free]

/-- A write of any register, by a host that is not held off (10_state.md R42, R45). -/
theorem State.Inv.writeReg {s : State} (inv : s.Inv) (free : s.heldOff = false) (r : Reg) (v : Word) :
    (s.writeReg r v).Inv := by
  cases r with
  | cmd h =>
    rw [State.writeReg_cmd free]
    exact inv.hostCmd h v
  | arg0 h => exact inv.argWrite h (fun _ => rfl) (fun _ => rfl)
  | arg1 h => exact inv.argWrite h (fun _ => rfl) (fun _ => rfl)
  | arg2 h => exact inv.argWrite h (fun _ => rfl) (fun _ => rfl)
  | _ => exact inv

theorem State.Inv.busWrite {s : State} (inv : s.Inv) (off : BitVec 12) (bw : BusWidth) (v : Word) :
    (s.busWrite off bw v).Inv := by
  rw [State.busWrite]
  split_ifs with held
  · exact inv
  · cases regAt off bw with
    | none => exact inv
    | some r => exact inv.writeReg (by simpa using held) r v

/-- A host task's store (20_memory.md R72). -/
theorem State.Inv.hostStore {s t : State} (inv : s.Inv) {a : Word} {v : Byte} (e : s.hostStore a v = .next t) :
    t.Inv := by
  rw [State.hostStore] at e
  split_ifs at e
  · exact Host.Outcome.next.inj e ▸ inv
  · rcases State.memWrite_cases s a v with ⟨_, w⟩ | ⟨_, w⟩ <;> rw [w] at e <;> obtain rfl := Host.Outcome.next.inj e
    · exact { inv with
        life := { inv.life with }
        line := { inv.line with }
        hmem := Memory.wf_write inv.hmem (BitVec.isLt a) }
    · exact inv

/-- Settles O41: the invariant of one concrete state is a check of its fields. -/
theorem resetMeetsTheInvariant : Obligations.ResetMeetsTheInvariant := State.inv_of_check (by decide)

/-- The reset event: only the lengths of its ports and cells are the state's own (70_reset_and_hazards.md R340). -/
theorem State.Inv.applyReset {s : State} (inv : s.Inv) : s.applyReset.Inv := by
  have idle : ∀ j, s.applyReset.port j = Port.reset := fun j => by
    simp [State.port, State.applyReset, List.getD_eq_getElem?_getD]
  have base : State.reset.Inv := resetMeetsTheInvariant
  exact { base with
    ports_pos := by simpa [State.applyReset] using inv.ports_pos
    ports_le := by simpa [State.applyReset] using inv.ports_le
    ports := by simp [State.applyReset, Port.Inv, Port.reset]
    life := .of_no_builder base.life.opened_iff nofun fun j => by simp [idle, Port.reset]
    line := { base.line with }
    ring := Ring.inv_of_empty (by simpa using inv.ring.cap_pos)
    hmem := inv.hmem
    call := rfl }

theorem State.Inv.runInput_next {s t : State} (inv : s.Inv) {inp : Input} (e : runInput inp s = .next t) : t.Inv := by
  cases inp with
  | busWrite off bw v =>
    cases reach : cmdPortOf off bw with
    | some h => exact Host.Outcome.next.inj ((runInput_busWrite_cmd reach v s).symm.trans e) ▸ inv.hostCmd h v
    | none => exact Host.Outcome.next.inj ((runInput_busWrite_other reach v s).symm.trans e) ▸ inv.busWrite off bw v
  | busRead off bw =>
    obtain rfl := Host.Outcome.next.inj e
    rw [State.busRead]
    split_ifs
    · exact inv
    · exact inv.unbound ..
  | stepWord w =>
    cases d : decode (.stepWord w) s.arg1Of with
    | ok i => exact inv.exec_next (by simpa [runInput, d] using e)
    | error x => simp [runInput, d] at e
  | hostStore a v => exact inv.hostStore e
  | reset => exact Host.Outcome.next.inj e ▸ inv.applyReset

/-- A step runs the head of the schedule on the state without it, or finds the schedule empty. -/
theorem step_cases (s : State) :
    step s = .next s ∨ ∃ inp rest, step s = runInput inp (s.popInput rest) := by
  cases scheduled : s.sched with
  | nil => simp [step, scheduled]
  | cons inp rest => exact .inr ⟨inp, rest, by simp [step, scheduled]⟩

/-- Settles O42: a step is a schedule entry run on the state without it, and every entry keeps the invariant. -/
theorem stepKeepsTheInvariant : Obligations.StepKeepsTheInvariant := by
  intro s t inv e
  rcases step_cases s with nothing | ⟨inp, rest, runs⟩
  · exact Host.Outcome.next.inj (nothing.symm.trans e) ▸ inv
  · have popped : (s.popInput rest).Inv := inv.unbound ..
    exact popped.runInput_next (runs.symm.trans e)

end Sys2Proof.Machine
end

section
/-! PROOF. The model's one fault (10_state.md R47, 20_memory.md R72): which reads of a cell without a value stop a step,
and why none does in a state of the invariant whose admitted memory is written (70_reset_and_hazards.md R353). -/

namespace Sys2Proof.Machine

/-! ### Where an attempt meets a cell without a value -/

theorem atomicStep_eq_fault_iff {s : State} {x : Attempt State} {r : Fault} :
    atomicStep s x = .fault r ↔ r = .modelUnwritten ∧ x = .unwritten := by
  cases x <;> simp [eq_comm]

theorem Attempt.andThen_eq_unwritten_iff {α β : Type} {x : Attempt α} {f : α → Attempt β} :
    x.andThen f = .unwritten ↔ x = .unwritten ∨ ∃ a, x = .ok a ∧ f a = .unwritten := by
  cases x <;> simp

/-- The oldest queued cell holds no byte. -/
def Ring.OldestUnwritten (r : Ring) : Prop := r.cnt ≠ 0 ∧ r.mem[r.rd]?.getD none = none

/-- The byte that PRODUCER_STEP would send is admitted and was never written. -/
def State.NextUnwritten (s : State) : Prop :=
  s.wr.count ≠ 0#32 ∧ s.admitted s.wr.nextAddr = true ∧ Memory.read s.hmem s.wr.nextAddr.toNat = none

/-- Which byte PRODUCER_STEP would send is a matter of the transfer, the admission and host memory. -/
theorem State.nextUnwritten_congr {s u : State} (wr : u.wr = s.wr) (launch : u.launch = s.launch)
    (hmem : u.hmem = s.hmem) : u.NextUnwritten ↔ s.NextUnwritten := by
  simp [State.NextUnwritten, State.admitted, wr, launch, hmem]

theorem State.getByte_eq_unwritten_iff (s : State) (agent : Agent) (port : Option Nat) :
    s.getByte agent port = .unwritten ↔ s.ring.OldestUnwritten := by
  rcases State.getByte_cases s agent port with ⟨none_left, e⟩ | ⟨some_left, unwritten, e⟩ | ⟨b, _, byte, e⟩
  · simp [e, Ring.OldestUnwritten, none_left]
  · simp [e, Ring.OldestUnwritten, some_left, unwritten]
  · simp [e, Ring.OldestUnwritten, byte]

theorem State.produce_eq_unwritten_iff (s : State) (agent : Agent) (port : Option Nat) :
    s.produce agent port = .unwritten ↔ s.NextUnwritten := by
  rcases State.produce_cases s agent port with ⟨done, e⟩ | ⟨v, _, _, byte, e⟩ | ⟨left, adm, unwritten, e⟩ | ⟨_, adm, e⟩
  · simp [e, State.NextUnwritten, done]
  · simp [e, State.NextUnwritten, byte]
  · simp [e, State.NextUnwritten, left, adm, unwritten]
  · simp [e, State.NextUnwritten, adm]

theorem State.memWrite_ne_unwritten (s : State) (a : Word) (v : Byte) : s.memWrite a v ≠ .unwritten := by
  rcases State.memWrite_cases s a v with ⟨_, e⟩ | ⟨_, e⟩ <;> simp [e]

/-- RD_LOOP stops at GET alone: its store reads nothing (42_read_engine.md R172). -/
theorem State.rdLoop_eq_unwritten_iff (s : State) (h : Nat) :
    s.rdLoop h = .unwritten ↔ s.rd.count ≠ 0#32 ∧ s.ring.OldestUnwritten := by
  by_cases none_left : s.rd.count = 0#32
  · simp [State.rdLoop, none_left]
  · simp only [State.rdLoop, State.recordStep_rd, none_left, if_false, Attempt.andThen_eq_unwritten_iff,
      State.getByte_eq_unwritten_iff, State.recordStep_ring, ne_eq, not_false_eq_true, true_and, or_iff_left_iff_imp]
    rintro ⟨⟨_ | b, t⟩, _, stored⟩
    · cases stored
    · simp [Attempt.andThen_eq_unwritten_iff, State.memWrite_ne_unwritten] at stored

theorem State.isrService_eq (s : State) :
    s.isrService = (if s.periph.rreq then s.afterSnapshot.serviceRx else .ok s.afterSnapshot).andThen
      fun t => if s.periph.treq then t.produce .isr none else .ok t := rfl

/-- The transmit half of ISR_SERVICE reads host memory as it was before the receive half. -/
theorem State.transmitHalf_eq_unwritten_iff {s u : State} (wr : u.wr = s.wr) (launch : u.launch = s.launch)
    (hmem : u.hmem = s.hmem) :
    (if s.periph.treq then u.produce .isr none else .ok u) = .unwritten ↔
      s.periph.treq = true ∧ s.NextUnwritten := by
  split_ifs with tx <;> simp [tx, State.produce_eq_unwritten_iff, State.nextUnwritten_congr wr launch hmem]

/-- ISR_SERVICE stops at PRXD or at the byte to send (44_interrupt_handler.md R246). -/
theorem State.isrService_eq_unwritten_iff (s : State) :
    s.isrService = .unwritten ↔
      (s.periph.rreq = true ∧ s.periph.prxd = none) ∨ (s.periph.treq = true ∧ s.NextUnwritten) := by
  rw [State.isrService_eq]
  cases rx : s.periph.rreq with
  | false => simpa using State.transmitHalf_eq_unwritten_iff (s := s) (u := s.afterSnapshot) rfl rfl rfl
  | true =>
    cases byte : s.periph.prxd with
    | none => simp [State.serviceRx_none (s := s.afterSnapshot) byte]
    | some b =>
      have received : s.afterSnapshot.serviceRx = .ok (s.afterSnapshot.afterRx b) := State.serviceRx_eq byte
      simpa [received] using State.transmitHalf_eq_unwritten_iff (s := s) (u := s.afterSnapshot.afterRx b) rfl rfl rfl

/-- WR_PEND_CHECK stops at the byte to send (43_write_engine.md R202). -/
theorem State.wrPendCheck_eq_unwritten_iff (s : State) (h : Nat) :
    s.wrPendCheck h = .unwritten ↔ s.periph.pen = true ∧ s.periph.treq = true ∧ s.NextUnwritten := by
  cases request : s.periph.pen && s.periph.treq with
  | false =>
    have none_pending : ¬ (s.periph.pen = true ∧ s.periph.treq = true) := by simpa using request
    simp [State.wrPendCheck, request, ← and_assoc, none_pending]
  | true =>
    obtain ⟨pen, treq⟩ : s.periph.pen = true ∧ s.periph.treq = true := by simpa using request
    simp only [State.wrPendCheck, State.recordStep_periph, pen, treq, Bool.and_self, if_true, true_and,
      Attempt.andThen_eq_unwritten_iff, State.produce_eq_unwritten_iff, reduceCtorEq, and_false, exists_false, or_false]
    exact State.nextUnwritten_congr rfl rfl rfl

/-! ### Which instructions can stop -/

/-- The instructions that read a cell which may hold no value. -/
def mayStop : Instr → Bool
  | .rdLoop _ => true
  | .wrPendCheck _ => true
  | .isrService => true
  | .get => true
  | .producerStep => true
  | _ => false

theorem ite_eq_next {c : Prop} [Decidable c] {x y : Host.Outcome State Fault Refusal} (hx : ∃ t, x = .next t)
    (hy : ∃ t, y = .next t) : ∃ t, (if c then x else y) = .next t := by
  split_ifs
  · exact hx
  · exact hy

/-- Every other meaning answers a next state. -/
theorem exec_eq_next_of_not_mayStop {i : Instr} (quiet : mayStop i = false) (s : State) : ∃ t, exec i s = .next t := by
  cases i with
  | rdLoop | wrPendCheck | isrService | get | producerStep => cases quiet
  | openCmd | closeCmd | readCmd | writeCmd => exact ⟨_, rfl⟩
  | illegalCommand h w =>
    cases d : decodeCommand w (s.port h).arg1 <;> simp [exec, execIllegalCommand, d]
  | rdWoken h => exact ite_eq_next (ite_eq_next ⟨_, rfl⟩ ⟨_, rfl⟩) ⟨_, rfl⟩
  | _ => exact ite_eq_next ⟨_, rfl⟩ ⟨_, rfl⟩

theorem execRdLoop_eq_fault_iff {h : Nat} {s : State} {r : Fault} :
    execRdLoop h s = .fault r ↔ r = .modelUnwritten ∧
      s.hostMay h = true ∧ (s.port h).phase = .rdLoop ∧ s.rd.count ≠ 0#32 ∧ s.ring.OldestUnwritten := by
  rw [execRdLoop]
  split_ifs with here
  · rw [atomicStep_eq_fault_iff, State.rdLoop_eq_unwritten_iff, ← and_assoc (a := s.hostMay h = true),
      ← State.atPhase_iff, eq_true here, true_and]
  · rw [State.atPhase_iff] at here
    simp [← and_assoc (a := s.hostMay h = true), here]

theorem execWrPendCheck_eq_fault_iff {h : Nat} {s : State} {r : Fault} :
    execWrPendCheck h s = .fault r ↔ r = .modelUnwritten ∧
      s.hostMay h = true ∧ (s.port h).phase = .wrPendCheck ∧ s.periph.pen = true ∧ s.periph.treq = true ∧
        s.NextUnwritten := by
  rw [execWrPendCheck]
  split_ifs with here
  · rw [atomicStep_eq_fault_iff, State.wrPendCheck_eq_unwritten_iff, ← and_assoc (a := s.hostMay h = true),
      ← State.atPhase_iff, eq_true here, true_and]
  · rw [State.atPhase_iff] at here
    simp [← and_assoc (a := s.hostMay h = true), here]

theorem execIsrService_eq_fault_iff {s : State} {r : Fault} :
    execIsrService s = .fault r ↔ r = .modelUnwritten ∧ s.isrEnabled = true ∧
      ((s.periph.rreq = true ∧ s.periph.prxd = none) ∨ (s.periph.treq = true ∧ s.NextUnwritten)) := by
  rw [execIsrService]
  split_ifs with on
  · simp [atomicStep_eq_fault_iff, State.isrService_eq_unwritten_iff, on]
  · simp [on]

theorem execGet_eq_fault_iff {s : State} {r : Fault} :
    execGet s = .fault r ↔ r = .modelUnwritten ∧ (∃ h, s.call = some (.get h)) ∧ s.ring.OldestUnwritten := by
  rcases execGet_eq s with ⟨not_called, e⟩ | ⟨h, called, e⟩ <;> rw [e]
  · refine iff_of_false (by simp) fun ⟨_, ⟨h, called⟩, _⟩ => ?_
    simp [State.getCalled, called] at not_called
  · simp [atomicStep_eq_fault_iff, Attempt.andThen_eq_unwritten_iff, State.getByte_eq_unwritten_iff, called]

theorem execProducerStep_eq_fault_iff {s : State} {r : Fault} :
    execProducerStep s = .fault r ↔ r = .modelUnwritten ∧ (∃ p, s.call = some (.producer p)) ∧
      s.periph.pen = true ∧ s.periph.treq = true ∧ s.NextUnwritten := by
  rcases execProducerStep_eq s with ⟨not_called, e⟩ | ⟨p, called, pen, treq, e⟩ <;> rw [e]
  · refine iff_of_false (by simp) fun ⟨_, ⟨p, called⟩, pen, treq, _⟩ => ?_
    simp [State.producerCalled, called, pen, treq] at not_called
  · have next : s.endCall.NextUnwritten ↔ s.NextUnwritten := State.nextUnwritten_congr rfl rfl rfl
    simp [atomicStep_eq_fault_iff, State.produce_eq_unwritten_iff, called, pen, treq, next]

/-- Settles O35: the five instructions that can stop do so where their lemma says, and every other goes on. -/
theorem faultsAreReadsOfUnwrittenCells : Obligations.FaultsAreReadsOfUnwrittenCells := by
  intro i s r
  have goes_on := @exec_eq_next_of_not_mayStop i
  cases i with
  | rdLoop h => simp [exec, execRdLoop_eq_fault_iff, Ring.OldestUnwritten, and_assoc]
  | wrPendCheck h => simp [exec, execWrPendCheck_eq_fault_iff, State.NextUnwritten, WriteXfer.nextAddr, and_assoc]
  | isrService =>
    simp [exec, execIsrService_eq_fault_iff, State.NextUnwritten, WriteXfer.nextAddr, and_assoc, and_or_left]
  | get => simp [exec, execGet_eq_fault_iff, Ring.OldestUnwritten]
  | producerStep => simp [exec, execProducerStep_eq_fault_iff, State.NextUnwritten, WriteXfer.nextAddr, and_assoc]
  | _ =>
    obtain ⟨t, e⟩ := goes_on rfl s
    simp [e]

end Sys2Proof.Machine
end

section
/-! PROOF. Who writes what (10_state.md R28, R33, R40, R41): one lemma over every instruction says what a step may do to
the transfer flags, the counts, the configuration, FAULT, the wires and host memory. -/

namespace Sys2Proof.Machine

/-! ### Host memory and the launch values -/

/-- The launch values stand, and host memory changes by at most one write. -/
structure State.MemoryKept (s t : State) : Prop where
  launch : t.launch = s.launch := by rfl
  hmem : t.hmem = s.hmem ∨ ∃ a v, t.hmem = Memory.write s.hmem a v := by exact .inl rfl

/-- What was written stays written (20_memory.md R72). -/
theorem State.MemoryKept.written {s t : State} (kept : s.MemoryKept t) (written : s.MemoryWritten) :
    t.MemoryWritten := fun a adm => by
  have before : (Memory.read s.hmem a.toNat).isSome = true :=
    written a (by simpa [State.admitted, kept.launch] using adm)
  rcases kept.hmem with same | ⟨b, v, wrote⟩
  · rwa [same]
  · rw [wrote]
    exact Memory.isSome_read_write before

/-! ### The frame of a step -/

/-- The instructions that PRODUCER_STEP is part of (43_write_engine.md R210). -/
def Produces (i : Instr) : Prop := i = .isrService ∨ i = .producerStep ∨ ∃ h, i = .wrPendCheck h

/-- The other instructions that write WRITE_COUNT (10_state.md R33). -/
def SetsWrite (i : Instr) : Prop := ∃ h, i = .writeCmd h ∨ i = .writeIssue h ∨ i = .wrExit h ∨ i = .opBuild h

/-- The instructions that raise a fault bit (10_state.md R40). -/
def RaisesFault (i : Instr) : Prop :=
  ∃ h, i = .closeCmd h ∨ i = .closeIssue h ∨ i = .readCmd h ∨ i = .readIssue h ∨ i = .openIssue h ∨
    ∃ a, i = .openCmd h a

/-- One byte of the WRITE went into the data register (43_write_engine.md R210). -/
def State.Sent (s t : State) : Prop :=
  t.wr = { s.wr with count := s.wr.count - 1#32 } ∧ s.periph.treq = true ∧
    ∃ v, Memory.read s.hmem s.wr.nextAddr.toNat = some v ∧
      t.periph.txwire = (s.periph.writeData v).txwire ∧ t.periph.treq = (s.periph.writeData v).treq

/-- What the instruction `i` may change, and how. A field that is not given in a proof is unchanged. -/
structure State.Frame (i : Instr) (s t : State) : Prop extends s.MemoryKept t where
  cfg : t.cfg = s.cfg ∨ ∃ h, i = .opBuild h := by exact .inl rfl
  faults : t.faults = s.faults ∨ RaisesFault i ∧ ∃ k, t.faults = s.faults ||| k := by exact .inl rfl
  timedOut : t.rd.timedOut = true → s.rd.timedOut = true ∨ i = .rtExpire := by exact .inl
  wakePending : t.rd.wakePending = true → s.rd.wakePending = true ∨ ∃ h, i = .rdLoop h := by exact .inl
  rsem : t.rsem = true → s.rsem = true ∨ i = .isrService ∨ i = .rtExpire := by exact .inl
  wsem : t.wsem = true → s.wsem = true ∨ Produces i := by exact .inl
  wr : t.wr = s.wr ∨ SetsWrite i ∨ (Produces i ∧ s.Sent t) := by exact .inl rfl
  txwire : t.periph.txwire = s.periph.txwire ∨ (Produces i ∧ s.Sent t) ∨
    (i = .pwExpire ∧ s.periph.treq = true ∧ t.periph.treq = false ∧
      ∃ v, t.periph.txwire = s.periph.txwire ++ [v]) := by exact .inl rfl
  rxwire : t.periph.rxwire = s.periph.rxwire ∨
    ∃ b, i = .rxArrive b ∧ t.periph.rxwire = s.periph.rxwire ++ [b] := by exact .inl rfl

theorem State.Frame.refl (i : Instr) (s : State) : s.Frame i s where

/-- The latch of a command writes ports alone (45_lifecycle.md R289). -/
theorem State.Frame.of_latched {i : Instr} {s t : State} {h : Nat} {w : Word} (f : (s.latched h w).Frame i t) :
    s.Frame i t := { f with }

theorem State.openIssue_frame {i : Instr} (raises : RaisesFault i) (s : State) (h : Nat) :
    s.Frame i (s.openIssue h) := by
  rcases State.openIssue_cases s h with ⟨_, e⟩ | ⟨_, e⟩ <;> rw [e]
  · exact {}
  · exact { faults := .inr ⟨raises, if s.launch.boardReady then 0#32 else 0x4#32, by dsimp only; split_ifs <;> simp⟩ }

theorem State.closeIssue_frame {i : Instr} (raises : RaisesFault i) (s : State) (h : Nat) :
    s.Frame i (s.closeIssue h) := by
  rcases State.closeIssue_cases s h with ⟨_, e⟩ | ⟨_, e⟩ <;> rw [e]
  · exact {}
  · exact {
      faults := .inr ⟨raises, if s.inFlight then 0x1#32 else 0#32, by dsimp only; split_ifs <;> simp⟩
      rsem := nofun
      wsem := nofun }

theorem State.readIssue_frame {i : Instr} (raises : RaisesFault i) (s : State) (h : Nat) :
    s.Frame i (s.readIssue h) := by
  rcases State.readIssue_cases s h with ⟨_, e⟩ | ⟨_, _, e⟩ | ⟨_, _, e⟩ <;> rw [e]
  · exact {}
  · exact {}
  · exact {
      faults := .inr ⟨raises, if s.rd.active then 0x2#32 else 0#32, by dsimp only; split_ifs <;> simp⟩
      timedOut := nofun
      rsem := nofun }

theorem State.writeIssue_frame {i : Instr} (sets : SetsWrite i) (s : State) (h : Nat) :
    s.Frame i (s.writeIssue h) := by
  rcases State.writeIssue_cases s h with ⟨_, e, _⟩ | ⟨_, _, _, e⟩ <;> rw [e]
  · exact {}
  · exact { wr := .inr (.inl sets) }

/-- PRODUCER_STEP with a request pending, run on a state that has the transfer, host memory and the data register of
the step's first (43_write_engine.md R210). -/
theorem State.Frame.produce {i : Instr} {s u t : State} {agent : Agent} {port : Option Nat} (f : s.Frame i u)
    (produces : Produces i) (request : s.periph.treq = true) (wr : u.wr = s.wr) (hmem : u.hmem = s.hmem)
    (pen : u.periph.pen = s.periph.pen) (treq : u.periph.treq = s.periph.treq)
    (txwire : u.periph.txwire = s.periph.txwire) (rxwire : u.periph.rxwire = s.periph.rxwire)
    (e : u.produce agent port = .ok t) : s.Frame i t := by
  rcases State.produce_eq_ok e with ⟨_, rfl⟩ | ⟨v, _, _, byte, rfl⟩
  · exact { f with wsem := fun _ => .inr produces, wr := .inl wr, txwire := .inl txwire }
  · have sent : s.Sent { u with
      periph := u.periph.writeData v
      wr := { u.wr with count := u.wr.count - 1#32 }
      wsem := u.wsem || decide (u.wr.count = 1#32)
      history := u.history ++ [⟨0x82#8, agent, port, [], some (.sentByte v)⟩] } :=
      ⟨by rw [wr], request, v, by rw [← wr, ← hmem, byte],
        by simp only [Periph.writeData, pen, treq, txwire]; split_ifs <;> simp [txwire],
        by simp only [Periph.writeData, pen, treq]; split_ifs <;> simp [treq]⟩
    exact { f with
      wsem := fun _ => .inr produces
      wr := .inr (.inr ⟨produces, sent⟩)
      txwire := .inr (.inl ⟨produces, sent⟩)
      rxwire := .inl (by simp only [Periph.writeData]; split_ifs <;> exact rxwire) }

/-- ISR_SERVICE: the receive half moves neither the WRITE nor TXWIRE, the transmit half is PRODUCER_STEP
(44_interrupt_handler.md R246). -/
theorem execIsrService_frame {s t : State} (e : execIsrService s = .next t) : s.Frame .isrService t := by
  rcases execIsrService_cases e with rfl | ⟨_, u, received, produced⟩
  · exact .refl _ _
  have rsem : u.rsem = true → s.rsem = true ∨ Instr.isrService = .isrService ∨ Instr.isrService = .rtExpire :=
    fun _ => .inr (.inl rfl)
  rcases received with ⟨_, rfl⟩ | ⟨b, _, _, rfl⟩
  · have half : s.Frame .isrService s.afterSnapshot := {}
    rcases produced with ⟨_, rfl⟩ | ⟨request, e⟩
    · exact half
    · exact half.produce (.inl rfl) request rfl rfl rfl rfl rfl rfl e
  · have half : s.Frame .isrService (s.afterSnapshot.afterRx b) := { wakePending := nofun, rsem := rsem }
    rcases produced with ⟨_, rfl⟩ | ⟨request, e⟩
    · exact half
    · exact half.produce (.inl rfl) request rfl rfl rfl rfl rfl rfl e

theorem execWrPendCheck_frame {s t : State} {h : Nat} (e : execWrPendCheck h s = .next t) :
    s.Frame (.wrPendCheck h) t := by
  have produces : Produces (.wrPendCheck h) := .inr (.inr ⟨h, rfl⟩)
  rcases execWrPendCheck_cases e with rfl | ⟨_, _, ⟨_, rfl⟩ | ⟨_, _, _, rfl⟩ | ⟨v, pen, request, _, _, byte, rfl⟩⟩
  · exact .refl _ _
  · exact {}
  · exact { wsem := fun _ => .inr produces }
  · refine { wsem := fun _ => .inr produces, wr := .inr (.inr ⟨produces, ?sent⟩)
             txwire := .inr (.inl ⟨produces, ?sent⟩) }
    exact ⟨rfl, request, v, byte, by simp [Periph.writeData, pen, request], by simp [Periph.writeData, pen, request]⟩

theorem execRdLoop_frame {s t : State} {h : Nat} (e : execRdLoop h s = .next t) : s.Frame (.rdLoop h) t := by
  rcases execRdLoop_cases e with rfl | ⟨_, _, ⟨_, rfl⟩ | ⟨_, _, rfl⟩ | ⟨b, _, _, _, _, rfl⟩⟩
  · exact .refl _ _
  · exact {}
  · exact { wakePending := fun _ => .inr ⟨h, rfl⟩ }
  · exact { hmem := .inr ⟨_, b, rfl⟩ }

theorem execPwExpire_frame {s t : State} (e : execPwExpire s = .next t) : s.Frame .pwExpire t := by
  rcases execPwExpire_cases e with rfl | ⟨_, _, rfl⟩
  · exact .refl _ _
  · by_cases request : s.periph.pen = true ∧ s.periph.treq = true
    · rw [if_pos request]
      exact { txwire := .inr (.inr ⟨rfl, request.2, rfl, _, rfl⟩) }
    · rw [if_neg request]
      exact {}

/-- What any instruction may change. -/
theorem exec_frame {i : Instr} {s t : State} (e : exec i s = .next t) : s.Frame i t := by
  cases i with
  | openCmd h a =>
    rcases execOpenCmd_cases e with rfl | ⟨_, _, rfl⟩ | ⟨_, _, rfl⟩
    · exact .refl _ _
    · exact {}
    · exact .of_latched (State.openIssue_frame ⟨h, by simp⟩ _ h)
  | closeCmd h =>
    rcases execCloseCmd_cases e with rfl | ⟨_, _, rfl⟩ | ⟨_, _, rfl⟩
    · exact .refl _ _
    · exact {}
    · exact .of_latched (State.closeIssue_frame ⟨h, by simp⟩ _ h)
  | readCmd h =>
    rcases execReadCmd_cases e with rfl | ⟨_, _, rfl⟩ | ⟨_, _, _, rfl⟩ | ⟨_, _, _, rfl⟩
    · exact .refl _ _
    · exact {}
    · exact {}
    · exact .of_latched (State.readIssue_frame ⟨h, by simp⟩ _ h)
  | writeCmd h =>
    rcases execWriteCmd_cases e with rfl | ⟨_, _, rfl⟩ | ⟨_, _, _, rfl⟩ | ⟨_, _, _, rfl⟩
    · exact .refl _ _
    · exact {}
    · exact {}
    · exact .of_latched (State.writeIssue_frame ⟨h, by simp⟩ _ h)
  | illegalCommand h w =>
    rcases execIllegalCommand_cases e with rfl | ⟨_, _, rfl⟩ | ⟨_, _, _, rfl⟩
    · exact .refl _ _
    · exact {}
    · exact {}
  | openIssue h =>
    rcases execOpenIssue_cases e with rfl | ⟨_, rfl⟩
    · exact .refl _ _
    · exact State.openIssue_frame ⟨h, by simp⟩ _ h
  | closeIssue h =>
    rcases execCloseIssue_cases e with rfl | ⟨_, rfl⟩
    · exact .refl _ _
    · exact State.closeIssue_frame ⟨h, by simp⟩ _ h
  | readIssue h =>
    rcases execReadIssue_cases e with rfl | ⟨_, rfl⟩
    · exact .refl _ _
    · exact State.readIssue_frame ⟨h, by simp⟩ _ h
  | writeIssue h =>
    rcases execWriteIssue_cases e with rfl | ⟨_, rfl⟩
    · exact .refl _ _
    · exact State.writeIssue_frame ⟨h, by simp⟩ _ h
  | opBuild h =>
    rcases execOpBuild_cases e with rfl | ⟨_, _, rfl⟩
    · exact .refl _ _
    · exact {
        cfg := .inr ⟨h, rfl⟩
        timedOut := nofun
        wakePending := nofun
        rsem := nofun
        wsem := nofun
        wr := .inr (.inl ⟨h, by simp⟩) }
  | rdLoop h => exact execRdLoop_frame e
  | rdWaitWake h =>
    rcases execRdWaitWake_cases e with rfl | ⟨_, _, _, rfl⟩
    · exact .refl _ _
    · exact { rsem := nofun }
  | rdWoken h =>
    rcases execRdWoken_cases e with rfl | ⟨_, _, rfl⟩
    · exact .refl _ _
    · exact { wakePending := fun w => .inl (Bool.and_eq_true_iff.mp w).2 }
  | rdExit h =>
    rcases execRdExit_cases e with rfl | ⟨_, _, rfl⟩
    · exact .refl _ _
    · exact {}
  | wrPendCheck h => exact execWrPendCheck_frame e
  | wrDrain h =>
    rcases execWrDrain_cases e with rfl | ⟨_, _, rfl⟩
    · exact .refl _ _
    · exact { wsem := nofun }
  | wrCheck h =>
    rcases execWrCheck_cases e with rfl | ⟨_, _, ⟨_, rfl⟩ | ⟨_, _, rfl⟩ | ⟨_, _, rfl⟩⟩
    · exact .refl _ _
    · exact {}
    · exact { wsem := nofun }
    · exact {}
  | wrWaitWake h =>
    rcases execWrWaitWake_cases e with rfl | ⟨_, _, _, rfl⟩
    · exact .refl _ _
    · exact { wsem := nofun }
  | wrWaitTimeout h =>
    rcases execWrWaitTimeout_cases e with rfl | ⟨_, _, _, rfl⟩
    · exact .refl _ _
    · exact {}
  | wrExit h =>
    rcases execWrExit_cases e with rfl | ⟨_, _, rfl⟩
    · exact .refl _ _
    · exact { wr := .inr (.inl ⟨h, by simp⟩) }
  | isrService => exact execIsrService_frame e
  | rtExpire =>
    rcases execRtExpire_cases e with rfl | ⟨_, _, rfl⟩
    · exact .refl _ _
    · exact { timedOut := fun _ => .inr rfl, rsem := fun _ => .inr (.inr rfl) }
  | pwExpire => exact execPwExpire_frame e
  | tick =>
    rcases execTick_cases e with rfl | ⟨_, rfl⟩
    · exact .refl _ _
    · exact {}
  | rxArrive b =>
    rcases execRxArrive_cases e with rfl | ⟨_, _, rfl⟩
    · exact .refl _ _
    · exact { rxwire := .inr ⟨b, rfl, rfl⟩ }
  | txRequest =>
    rcases execTxRequest_cases e with rfl | ⟨_, _, rfl⟩
    · exact .refl _ _
    · exact {}
  | otherCause k =>
    rcases execOtherCause_cases e with rfl | ⟨_, _, _, rfl⟩
    · exact .refl _ _
    · exact {}
  | put b =>
    rcases execPut_cases e with rfl | ⟨_, ⟨_, rfl⟩ | ⟨_, rfl⟩⟩
    · exact .refl _ _
    · exact {}
    · exact {}
  | get =>
    rcases execGet_cases e with rfl | ⟨_, _, ⟨_, rfl⟩ | ⟨_, _, _, rfl⟩⟩
    · exact .refl _ _
    · exact {}
    · exact {}
  | producerStep =>
    rcases execProducerStep_cases e with rfl | ⟨_, _, _, request, e⟩
    · exact .refl _ _
    · have called : s.Frame .producerStep s.endCall := {}
      exact called.produce (.inr (.inl rfl)) request rfl rfl rfl rfl rfl rfl e

/-! ### The statements -/

/-- Settles O49: the frame of a step names each flag's poster and WRITE_COUNT's writers. -/
theorem signalsHaveTheirPosters : Obligations.SignalsHaveTheirPosters := by
  intro i s t e
  have f := exec_frame e
  refine ⟨fun before after => ?_, fun before after => ?_, fun before after => ?_, fun before after => ?_,
    fun changed => ?_⟩
  · exact (f.timedOut after).resolve_left (by simp [before])
  · exact (f.wakePending after).resolve_left (by simp [before])
  · exact (f.rsem after).resolve_left (by simp [before])
  · exact (f.wsem after).resolve_left (by simp [before])
  · rcases f.wr with same | ⟨h, sets⟩ | ⟨isr | producer | ⟨h, check⟩, _⟩
    · exact absurd (congrArg WriteXfer.count same) changed
    · exact .inr (.inr ⟨h, .inr sets⟩)
    · exact .inl isr
    · exact .inr (.inl producer)
    · exact .inr (.inr ⟨h, .inl check⟩)

/-- Settles O52: by the frame, CFG changes in OP_BUILD alone and FAULT only gains bits. -/
theorem configurationAndFaultBitsAreHeld : Obligations.ConfigurationAndFaultBitsAreHeld := by
  intro i s t e
  have f := exec_frame e
  refine ⟨fun changed => ?_, fun n set => ?_, fun changed => ?_⟩
  · obtain ⟨h, rfl⟩ := f.cfg.resolve_left changed
    rcases execOpBuild_cases e with rfl | ⟨_, _, rfl⟩
    · exact absurd rfl changed
    · exact ⟨h, rfl, rfl⟩
  · rcases f.faults with same | ⟨_, k, raised⟩
    · rwa [same]
    · simp [raised, set]
  · exact (f.faults.resolve_left changed).1

/-- Into a pending request of an enabled peripheral the byte goes out; into none, nothing does
(44_interrupt_handler.md R243). -/
theorem State.Sent.txwire {s t : State} (sent : s.Sent t) :
    t.periph.txwire = s.periph.txwire ∨
      (s.periph.treq = true ∧ t.periph.treq = false ∧ ∃ v, t.periph.txwire = s.periph.txwire ++ [v]) := by
  obtain ⟨_, request, v, _, txwire, treq⟩ := sent
  rw [Periph.writeData_eq] at txwire treq
  split_ifs at txwire treq
  · exact .inr ⟨request, treq, v, txwire⟩
  · exact .inl txwire

/-- Settles O53: by the frame, TXWIRE grows by what PRODUCER_STEP or the placeholder wrote into a pending request, and
WRITE_COUNT falls by the byte that went out. -/
theorem wiresGrowByOneByte : Obligations.WiresGrowByOneByte := by
  intro i s t e
  have f := exec_frame e
  refine ⟨?_, f.rxwire, fun enabled changed produces => ?_⟩
  · rcases f.txwire with same | ⟨produces, sent⟩ | ⟨pw, request, taken, v, grew⟩
    · exact .inl same
    · refine sent.txwire.imp_right fun ⟨request, taken, v, grew⟩ => ⟨request, taken, ?_, v, grew⟩
      exact produces.imp_right .inr
    · exact .inr ⟨request, taken, .inr (.inl pw), v, grew⟩
  · rcases f.wr with same | ⟨h, sets⟩ | ⟨_, wr, request, v, byte, txwire, _⟩
    · exact absurd (congrArg WriteXfer.count same) changed
    · rcases produces with rfl | rfl | ⟨_, rfl⟩ <;> simp at sets
    · exact ⟨wr, v, byte, by simpa [Periph.writeData, request, enabled request] using txwire⟩

/-! ### Runs -/

/-- A host's command is always some row's step: the command it decodes to, or ILLEGAL_COMMAND. -/
theorem exists_exec_eq_hostCmd (s : State) (h : Nat) (w : Word) : ∃ i, exec i s = .next (s.hostCmd h w) := by
  cases d : decodeCommand w (s.port h).arg1 with
  | error x => exact ⟨.illegalCommand h w, by simp [exec, execIllegalCommand, d]⟩
  | ok k => exact ⟨k.toInstr h, by rw [exec_toInstr, word_of_decodeCommand d]⟩

theorem State.argWrite_memoryKept (s : State) (h : Nat) (f : Port → Port) : s.MemoryKept (s.argWrite h f) := by
  rw [State.argWrite]
  split_ifs <;> exact {}

theorem State.hostCmd_memoryKept (s : State) (h : Nat) (w : Word) : s.MemoryKept (s.hostCmd h w) := by
  obtain ⟨i, e⟩ := exists_exec_eq_hostCmd s h w
  exact (exec_frame e).toMemoryKept

/-- A bus write of a register moves no byte of host memory (20_memory.md R78). -/
theorem State.busWrite_memoryKept (s : State) (off : BitVec 12) (bw : BusWidth) (v : Word) :
    s.MemoryKept (s.busWrite off bw v) := by
  rw [State.busWrite]
  split_ifs with held
  · exact {}
  · cases regAt off bw with
    | none => exact {}
    | some r =>
      cases r with
      | cmd h =>
        have free : s.heldOff = false := by simpa using held
        simpa only [State.writeReg_cmd free] using s.hostCmd_memoryKept h v
      | arg0 h => exact s.argWrite_memoryKept h _
      | arg1 h => exact s.argWrite_memoryKept h _
      | arg2 h => exact s.argWrite_memoryKept h _
      | _ => exact {}

theorem runInput_memoryKept {inp : Input} {s t : State} (e : runInput inp s = .next t) : s.MemoryKept t := by
  cases inp with
  | busWrite off bw v =>
    cases reach : cmdPortOf off bw with
    | some h => exact Host.Outcome.next.inj ((runInput_busWrite_cmd reach v s).symm.trans e) ▸ s.hostCmd_memoryKept h v
    | none =>
      exact Host.Outcome.next.inj ((runInput_busWrite_other reach v s).symm.trans e) ▸ s.busWrite_memoryKept off bw v
  | busRead off bw =>
    obtain rfl := Host.Outcome.next.inj e
    rw [State.busRead]
    split_ifs <;> exact {}
  | stepWord w =>
    cases d : decode (.stepWord w) s.arg1Of with
    | ok i =>
      have e : exec i s = .next t := by simpa [runInput, d] using e
      exact (exec_frame e).toMemoryKept
    | error x => simp [runInput, d] at e
  | hostStore a v =>
    simp only [runInput, State.hostStore] at e
    split_ifs at e
    · exact Host.Outcome.next.inj e ▸ {}
    · rcases State.memWrite_cases s a v with ⟨_, w⟩ | ⟨_, w⟩ <;> rw [w] at e <;> obtain rfl := Host.Outcome.next.inj e
      · exact { hmem := .inr ⟨_, v, rfl⟩ }
      · exact {}
  | reset => exact Host.Outcome.next.inj e ▸ {}

/-- In a state of the invariant the ring's queued cells and a pending PRXD hold bytes (10_state.md R29, R47), so only
host memory that was never written can stop a step. -/
theorem State.Inv.exec_ne_fault {s : State} (inv : s.Inv) (written : s.MemoryWritten) (i : Instr) (r : Fault) :
    exec i s ≠ .fault r := fun stops => by
  obtain ⟨_, ⟨_, some_left, no_value⟩ | ⟨_, _, pending, no_value⟩ | ⟨_, _, adm, no_value⟩⟩ :=
    (faultsAreReadsOfUnwrittenCells i s r).mp stops
  · simpa [no_value] using inv.ring.oldest_isSome some_left
  · simpa [no_value] using inv.line.rreq_value pending
  · exact absurd (written _ adm) (by rw [no_value]; simp)

theorem State.Inv.runInput_ne_fault {s : State} (inv : s.Inv) (written : s.MemoryWritten) (inp : Input) (r : Fault) :
    runInput inp s ≠ .fault r := by
  cases inp with
  | busWrite off bw v =>
    cases reach : cmdPortOf off bw with
    | some h => simp [runInput_busWrite_cmd reach]
    | none => simp [runInput_busWrite_other reach]
  | busRead off bw => nofun
  | stepWord w =>
    cases d : decode (.stepWord w) s.arg1Of with
    | ok i => simpa [runInput, d] using inv.exec_ne_fault written i r
    | error x => simp [runInput, d]
  | hostStore a v =>
    simp only [runInput, State.hostStore]
    split_ifs
    · nofun
    · simp [atomicStep_eq_fault_iff, State.memWrite_ne_unwritten]
  | reset => nofun

theorem step_memoryKept {s t : State} (e : step s = .next t) : s.MemoryKept t := by
  rcases step_cases s with nothing | ⟨inp, rest, runs⟩
  · exact Host.Outcome.next.inj (nothing.symm.trans e) ▸ {}
  · exact { runInput_memoryKept (runs.symm.trans e) with }

/-- The induction over a run: its states meet the invariant and their admitted memory is written. -/
theorem Reaches.inv_and_written {s t : State} (run : Reaches s t) (inv : s.Inv) (written : s.MemoryWritten) :
    t.Inv ∧ t.MemoryWritten := by
  induction run with
  | start => exact ⟨inv, written⟩
  | more _ e ih => exact ⟨stepKeepsTheInvariant _ _ ih.1 e, (step_memoryKept e).written ih.2⟩

/-- Settles O43: every state of a run has the invariant and written memory, and such a state's step does not stop. -/
theorem writtenMemoryRunsWithoutFaults : Obligations.WrittenMemoryRunsWithoutFaults := by
  intro s inv written t run r stops
  obtain ⟨inv_t, written_t⟩ := run.inv_and_written inv written
  rcases step_cases t with nothing | ⟨inp, rest, runs⟩
  · simp [nothing] at stops
  · have popped : (t.popInput rest).Inv := inv_t.unbound ..
    exact popped.runInput_ne_fault written_t inp r (runs.symm.trans stops)

end Sys2Proof.Machine
end

section
/-! PROOF. The register map as the bus sees it (10_state.md R25, R42 to R45), and the values reset leaves (R46). -/

namespace Sys2Proof.Machine

/-! ### Status words, bit by bit -/

@[simp] theorem getLsbD_bitAt (b : Bool) (n i : Nat) :
    (bitAt b n).getLsbD i = (b && decide (i = n) && decide (i < 32)) := by
  simp only [bitAt, BitVec.getLsbD_shiftLeft, BitVec.getLsbD_setWidth, BitVec.getLsbD_ofBool]
  grind

@[simp] theorem getElem_bitAt (b : Bool) (n i : Nat) (hi : i < 32) : (bitAt b n)[i] = (b && decide (i = n)) := by
  rw [← BitVec.getLsbD_eq_getElem, getLsbD_bitAt]
  simp [hi]

/-- A field of a word is its bits, each at its place. -/
theorem extractLsb'_eq_of_bits {w : Word} {start n : Nat} {v : BitVec n}
    (bits : ∀ i < n, w.getLsbD (start + i) = v.getLsbD i) : w.extractLsb' start n = v :=
  BitVec.eq_of_getLsbD_eq fun i hi => by simp [hi, bits i hi]

/-- Bits 2:1 of BSTAT (10_state.md R44). -/
theorem State.bstat_lstate (s : State) : s.bstat.extractLsb' 1 2 = s.life.lstate.code :=
  extractLsb'_eq_of_bits fun i hi => by
    obtain rfl | rfl : i = 0 ∨ i = 1 := by omega
    · simp [State.bstat]
    · simp [State.bstat]

/-- Bits 31:12 of BSTAT (10_state.md R44). -/
theorem State.bstat_reserved (s : State) : s.bstat.extractLsb' 12 20 = 0#20 :=
  extractLsb'_eq_of_bits fun i hi => by
    have past : s.life.lstate.code.getLsbD (12 + i - 1) = false := BitVec.getLsbD_of_ge _ _ (by omega)
    simp only [State.bstat, BitVec.getLsbD_or, getLsbD_bitAt, BitVec.getLsbD_shiftLeft, BitVec.getLsbD_setWidth, past,
      BitVec.getLsbD_zero]
    simp
    omega

/-- The fields of PORTSTAT (10_state.md R45). -/
theorem Port.portstat_phase (p : Port) : p.portstat.extractLsb' 4 4 = p.phase.code :=
  extractLsb'_eq_of_bits fun i hi => by
    have field : ((p.phase.code.setWidth 32) <<< 4 : Word).getLsbD (4 + i) = p.phase.code.getLsbD i := by
      have in_word : 4 + i < 32 ∧ i < 32 := by omega
      simp [in_word]
    simp only [Port.portstat, BitVec.getLsbD_or, getLsbD_bitAt, field]
    simp
    omega

theorem Port.portstat_reserved (p : Port) : p.portstat.extractLsb' 8 24 = 0#24 :=
  extractLsb'_eq_of_bits fun i hi => by
    have past : p.phase.code.getLsbD (8 + i - 4) = false := BitVec.getLsbD_of_ge _ _ (by omega)
    simp only [Port.portstat, BitVec.getLsbD_or, getLsbD_bitAt, BitVec.getLsbD_shiftLeft, BitVec.getLsbD_setWidth, past,
      BitVec.getLsbD_zero]
    simp
    omega

/-! ### The register map -/

/-- The global registers stand at word offsets up to NPORTS (10_state.md R43). -/
theorem globalReg_eq_some {n : Nat} {r : Reg} (e : globalReg n = some r) : n % 4 = 0 ∧ n < 0x3C := by
  unfold globalReg at e
  split at e <;> cases e <;> decide

/-- A port's registers stand at word offsets up to PORTSTAT (10_state.md R45). -/
theorem portReg_eq_some {h n : Nat} {r : Reg} (e : portReg h n = some r) : n % 4 = 0 ∧ n < 0x18 := by
  unfold portReg at e
  split at e <;> cases e <;> decide

/-- A register that an access reaches is a global one, or one of the port whose block the offset lies in
(10_state.md R42). -/
theorem regAt_eq_some {off : BitVec 12} {bw : BusWidth} {r : Reg} (e : regAt off bw = some r) :
    bw = .word ∧ ((off.toNat < 0x100 ∧ globalReg off.toNat = some r) ∨
      (0x100 ≤ off.toNat ∧ portReg ((off.toNat - 0x100) / 0x20) ((off.toNat - 0x100) % 0x20) = some r)) := by
  simp only [regAt] at e
  split_ifs at e with word low
  · exact ⟨word, .inl ⟨low, e⟩⟩
  · exact ⟨word, .inr ⟨Nat.le_of_not_lt low, e⟩⟩

/-- The accesses that reach no register (10_state.md R42, R43, R45). -/
theorem regAt_eq_none {off : BitVec 12} {bw : BusWidth}
    (miss : bw ≠ .word ∨ off.toNat % 4 ≠ 0 ∨ (0x3C ≤ off.toNat ∧ off.toNat < 0x100) ∨
      (0x100 ≤ off.toNat ∧ 0x18 ≤ (off.toNat - 0x100) % 0x20)) : regAt off bw = none := by
  refine Option.eq_none_iff_forall_ne_some.mpr fun r e => ?_
  obtain ⟨rfl, ⟨low, global⟩ | ⟨high, port⟩⟩ := regAt_eq_some e
  · have := globalReg_eq_some global
    simp only [ne_eq, not_true_eq_false, false_or] at miss
    omega
  · have := portReg_eq_some port
    simp only [ne_eq, not_true_eq_false, false_or] at miss
    omega

/-- A register of a port, at its offset in the map (10_state.md R45). -/
theorem regAt_port {h k n : Nat} {r : Reg} (reg : portReg h k = some r) (hn : n = 0x100 + 0x20 * h + k) (hh : h < 120) :
    regAt (BitVec.ofNat 12 n) .word = some r := by
  have hk := portReg_eq_some reg
  have off : (BitVec.ofNat 12 n).toNat = 0x100 + 0x20 * h + k := by
    rw [BitVec.toNat_ofNat]
    omega
  have block : (0x100 + 0x20 * h + k - 0x100) / 0x20 = h := by omega
  have place : (0x100 + 0x20 * h + k - 0x100) % 0x20 = k := by omega
  have above : ¬ 0x100 + 0x20 * h + k < 0x100 := by omega
  simp only [regAt, off, block, place, above, if_true, if_false, Config.maxHost, hh, reg]

/-- A CMD register stands at the start of its port's block (10_state.md R45). -/
theorem cmdPortOf_eq_some {off : BitVec 12} {bw : BusWidth} {h : Nat} (e : cmdPortOf off bw = some h) :
    bw = .word ∧ off.toNat = 0x100 + 0x20 * h := by
  simp only [cmdPortOf] at e
  split_ifs at e with c
  cases e
  exact ⟨c.1, by omega⟩

/-! ### Bus reads -/

theorem State.busValue_of_none {off : BitVec 12} {bw : BusWidth} (none_there : regAt off bw = none) (s : State) :
    s.busValue off bw = 0#32 := by
  simp [State.busValue, none_there]

theorem State.busValue_port {h k n : Nat} {r : Reg} (reg : portReg h k = some r) (hn : n = 0x100 + 0x20 * h + k)
    (hh : h < 120) (s : State) : s.busValue (BitVec.ofNat 12 n) .word = s.readReg r := by
  simp [State.busValue, regAt_port reg hn hh]

/-- The registers of a port that does not exist read 0 (10_state.md R42). -/
theorem State.readReg_of_gone {s : State} {h n : Nat} {r : Reg} (reg : portReg h n = some r)
    (gone : s.ports.length ≤ h) : s.readReg r = 0#32 := by
  have no_port : s.hasPort h = false := by simpa [State.hasPort] using gone
  unfold portReg at reg
  split at reg <;> cases reg <;> simp [State.readReg, no_port]

/-- TMRSTAT, bit by bit (10_state.md R43). -/
theorem State.getLsbD_tmrstat (s : State) (n : Nat) :
    s.tmrstat.getLsbD n =
      (if n = 0 then s.rtimer.armed else if n = 1 then s.rtimer.exp
       else if n = 2 then s.pwtimer.armed else if n = 3 then s.pwtimer.exp else false) := by
  simp only [State.tmrstat, BitVec.getLsbD_or, getLsbD_bitAt]
  split_ifs with n0 n1 n2 n3
  · simp [n0]
  · simp [n1]
  · simp [n2]
  · simp [n3]
  · simp [n0, n1, n2, n3]

/-- Settles O37: each offset's register by the map, and no register at the offsets that miss it. -/
theorem busReadsFollowTheRegisterMap : Obligations.BusReadsFollowTheRegisterMap := by
  intro s h free
  refine ⟨fun off bw => ?_, rfl, rfl, rfl, rfl, rfl, rfl, rfl, rfl, rfl, rfl, s.getLsbD_tmrstat, rfl, rfl, rfl, rfl,
    fun there hh => ?_, fun off bw miss => ?_, fun off above below => ?_, fun off above past => ?_,
    fun off above gone => ?_⟩
  · simp [runInput, State.busRead, free]
  · have port : s.hasPort h = true := (s.hasPort_iff h).mpr there
    have portstat : s.busValue (BitVec.ofNat 12 (0x114 + 0x20 * h)) .word = (s.port h).portstat :=
      (s.busValue_port (k := 0x14) rfl (by omega) hh).trans (if_pos port)
    rw [portstat]
    exact ⟨s.busValue_port (k := 0x00) rfl rfl hh,
      (s.busValue_port (k := 0x04) rfl (by omega) hh).trans (if_pos port),
      (s.busValue_port (k := 0x08) rfl (by omega) hh).trans (if_pos port),
      (s.busValue_port (k := 0x0C) rfl (by omega) hh).trans (if_pos port),
      (s.busValue_port (k := 0x10) rfl (by omega) hh).trans (if_pos port),
      by simp [Port.portstat], by simp [Port.portstat],
      extractLsb'_eq_of_bits fun i hi => by
        obtain rfl | rfl : i = 0 ∨ i = 1 := by omega
        · simp [Port.portstat]
        · simp [Port.portstat],
      (s.port h).portstat_phase, (s.port h).portstat_reserved⟩
  · exact s.busValue_of_none (regAt_eq_none (miss.imp_right .inl))
  · exact s.busValue_of_none (regAt_eq_none (.inr (.inr (.inl ⟨above, below⟩))))
  · exact s.busValue_of_none (regAt_eq_none (.inr (.inr (.inr ⟨above, past⟩))))
  · cases e : regAt off .word with
    | none => exact s.busValue_of_none e
    | some r =>
      obtain ⟨_, ⟨low, _⟩ | ⟨_, reg⟩⟩ := regAt_eq_some e
      · omega
      · simp [State.busValue, e, State.readReg_of_gone reg gone]

/-! ### Bus writes -/

/-- An update of a port that does not exist changes nothing (10_state.md R42). -/
theorem State.updPort_of_gone {s : State} {h : Nat} (gone : s.ports.length ≤ h) (f : Port → Port) :
    s.updPort h f = s := by
  simp [State.updPort, List.modify_eq_set_getElem?, gone]

theorem State.hostCmd_of_gone {s : State} {h : Nat} (gone : s.ports.length ≤ h) (w : Word) : s.hostCmd h w = s := by
  have no_port : ¬ h < s.ports.length := by omega
  simp [State.hostCmd, State.hostMay, State.hasPort, no_port]

theorem State.argWrite_of_gone {s : State} {h : Nat} (gone : s.ports.length ≤ h) (f : Port → Port) :
    s.argWrite h f = s := by
  rw [State.argWrite, State.overrun]
  split_ifs <;> exact State.updPort_of_gone gone _

/-- The global registers are read-only (10_state.md R43). -/
theorem State.writeReg_globalReg {n : Nat} {r : Reg} (reg : globalReg n = some r) (s : State) (v : Word) :
    s.writeReg r v = s := by
  unfold globalReg at reg
  split at reg <;> cases reg <;> rfl

/-- RESULT and PORTSTAT are read-only, and a port that does not exist takes no write (10_state.md R42, R45). -/
theorem State.writeReg_portReg {s : State} {h n : Nat} {r : Reg} (reg : portReg h n = some r)
    (other : s.ports.length ≤ h ∨ 0x10 ≤ n) (v : Word) : s.writeReg r v = s := by
  have gone : n < 0x10 → s.ports.length ≤ h := fun lt => other.resolve_right (Nat.not_le_of_lt lt)
  unfold portReg at reg
  split at reg <;> cases reg
  · simpa [State.writeReg, State.hasPort] using fun lt => absurd (gone (by decide)) (Nat.not_le_of_lt lt)
  · exact State.argWrite_of_gone (gone (by decide)) _
  · exact State.argWrite_of_gone (gone (by decide)) _
  · exact State.argWrite_of_gone (gone (by decide)) _
  · rfl
  · rfl

/-- Settles O38: a CMD offset is a command of a port that is not there, and every other write misses the operand
registers or finds no port. -/
theorem otherBusWritesHaveNoEffect : Obligations.OtherBusWritesHaveNoEffect := by
  intro s off bw v other
  cases reach : cmdPortOf off bw with
  | some h =>
    obtain ⟨rfl, at_cmd⟩ := cmdPortOf_eq_some reach
    have gone : s.ports.length ≤ h := by
      simp only [ne_eq, not_true_eq_false, false_or] at other
      omega
    rw [runInput_busWrite_cmd reach, State.hostCmd_of_gone gone]
  | none =>
    rw [runInput_busWrite_other reach, State.busWrite]
    split_ifs
    · rfl
    cases e : regAt off bw with
    | none => rfl
    | some r =>
      obtain ⟨rfl, ⟨_, reg⟩ | ⟨high, reg⟩⟩ := regAt_eq_some e
      · exact congrArg _ (s.writeReg_globalReg reg v)
      · have aligned := portReg_eq_some reg
        simp only [ne_eq, not_true_eq_false, false_or] at other
        exact congrArg _ (State.writeReg_portReg reg (by omega) v)

/-- Settles O36: each flag is one bit of BSTAT, and a bus write at its offset is none that has an effect. -/
theorem bstatShowsTheFlags : Obligations.BstatShowsTheFlags := by
  intro s
  refine ⟨?_, s.bstat_lstate, ?_, ?_, ?_, ?_, ?_, ?_, ?_, ?_, ?_, s.bstat_reserved, rfl,
    fun bw v => otherBusWritesHaveNoEffect s _ bw v (.inr (.inl (by decide)))⟩ <;> simp [State.bstat]

/-! ### A port's own registers -/

/-- A command's own body updates its port and leaves OVR (45_lifecycle.md R271, R274; 42_read_engine.md R171;
43_write_engine.md R201). -/
theorem State.issueBody_ports (s : State) (h : Nat) (k : Command) :
    ∃ f : Port → Port, (s.issueBody h k).ports = s.ports.modify h f ∧ ∀ q, (f q).ovr = q.ovr := by
  cases k with
  | openC a =>
    rcases State.openIssue_cases s h with ⟨_, e⟩ | ⟨_, e⟩
    · exact ⟨_, congrArg State.ports e, fun _ => rfl⟩
    · exact ⟨_, congrArg State.ports e, fun _ => rfl⟩
  | closeC =>
    rcases State.closeIssue_cases s h with ⟨_, e⟩ | ⟨_, e⟩
    · exact ⟨_, congrArg State.ports e, fun _ => rfl⟩
    · exact ⟨_, congrArg State.ports e, fun _ => rfl⟩
  | readC =>
    rcases State.readIssue_cases s h with ⟨_, e⟩ | ⟨_, _, e⟩ | ⟨_, _, e⟩
    · exact ⟨_, congrArg State.ports e, fun _ => rfl⟩
    · exact ⟨_, congrArg State.ports e, fun _ => rfl⟩
    · exact ⟨_, congrArg State.ports e, fun _ => rfl⟩
  | writeC =>
    rcases State.writeIssue_cases s h with ⟨_, e, _⟩ | ⟨_, _, _, e⟩
    · exact ⟨_, congrArg State.ports e, fun _ => rfl⟩
    · exact ⟨_, congrArg State.ports e, fun _ => rfl⟩

theorem State.issueBody_ovr (s : State) (h : Nat) (k : Command) : ((s.issueBody h k).port h).ovr = (s.port h).ovr := by
  obtain ⟨f, ports, keeps⟩ := s.issueBody_ports h k
  rw [State.port, ports, getD_modify]
  split_ifs
  · exact keeps _
  · rfl

/-- A command that is issued clears OVR, legal or not (10_state.md R25). -/
theorem State.hostCmd_clears_ovr {s : State} {h : Nat} (may : s.hostMay h = true) (free : (s.port h).busy = false)
    (w : Word) : ((s.hostCmd h w).port h).ovr = false := by
  obtain ⟨there, _⟩ := (s.hostMay_iff h).mp may
  rcases State.hostCmd_cases s h w with ⟨held, _⟩ | ⟨_, busy, _⟩ | ⟨_, _, _, e⟩ | ⟨_, _, k, _, e⟩
  · simp [may] at held
  · simp [free] at busy
  · rw [e]
    exact congrArg Port.ovr (State.port_updPort_self there _)
  · rw [e, State.issueBody_ovr]
    exact congrArg Port.ovr (State.port_updPort_self there _)

/-- A write of an operand register (10_state.md R25, R45). -/
theorem runInput_busWrite_arg {s : State} {h k : Nat} {r : Reg} (reg : portReg h k = some r) (operand : k ≠ 0)
    (hh : h < 120) (free : s.heldOff = false) (v : Word) :
    runInput (.busWrite (BitVec.ofNat 12 (0x100 + 0x20 * h + k)) .word v) s = .next (s.writeReg r v) := by
  have hk := portReg_eq_some reg
  have no_cmd : cmdPortOf (BitVec.ofNat 12 (0x100 + 0x20 * h + k)) .word = none := by
    refine Option.eq_none_iff_forall_ne_some.mpr fun j e => ?_
    have := (cmdPortOf_eq_some e).2
    rw [BitVec.toNat_ofNat] at this
    omega
  rw [runInput_busWrite_other no_cmd]
  simp [State.busWrite, free, regAt_port reg rfl hh]

/-- Settles O12: CMD is the host's command and the operand registers are operand writes, and both ask BUSY first. -/
theorem busyPortIgnoresWritesAndSetsOverrun : Obligations.BusyPortIgnoresWritesAndSetsOverrun := by
  intro s h v may hh
  obtain ⟨_, free⟩ := (s.hostMay_iff h).mp may
  have arg (k : Nat) (r : Reg) (reg : portReg h k = some r) (operand : k ≠ 0) :=
    runInput_busWrite_arg reg operand hh free v
  constructor
  · intro busy
    have cmd : runInput (.busWrite (cmdOffset h) .word v) s = .next (s.overrun h) := by
      rw [runInput_busWrite_cmd (cmdPortOf_cmdOffset hh)]
      simp [State.hostCmd, may, State.cmdWrite, busy]
    have overrun (f : Port → Port) : s.argWrite h f = s.overrun h := if_pos busy
    simp only [List.forall_mem_cons]
    refine ⟨cmd, ?_, ?_, ?_, nofun⟩
    · exact (arg 0x04 _ rfl (by decide)).trans (congrArg _ (overrun _))
    · exact (arg 0x08 _ rfl (by decide)).trans (congrArg _ (overrun _))
    · exact (arg 0x0C _ rfl (by decide)).trans (congrArg _ (overrun _))
  · intro idle
    have stored (f : Port → Port) : s.argWrite h f = s.updPort h f := if_neg (by simp [idle])
    have clears (w : Word) := State.hostCmd_clears_ovr may idle w
    refine ⟨?_, ?_, ?_, ?_⟩
    · exact (arg 0x04 _ rfl (by decide)).trans (congrArg _ (stored _))
    · exact (arg 0x08 _ rfl (by decide)).trans (congrArg _ (stored _))
    · exact (arg 0x0C _ rfl (by decide)).trans (congrArg _ (stored _))
    · simp only [List.forall_mem_cons]
      exact ⟨⟨_, rfl, clears _⟩, ⟨_, rfl, clears _⟩, ⟨_, rfl, clears _⟩, ⟨_, rfl, clears _⟩, ⟨_, rfl, clears _⟩, nofun⟩

/-! ### Values written out -/

/-- Settles O39: the reset state is one concrete state. -/
theorem resetLeavesTheTablesValues : Obligations.ResetLeavesTheTablesValues := by
  have ports : ∀ p ∈ State.reset.ports, p = Port.reset := fun _ => List.eq_of_mem_replicate
  have cells : ∀ c ∈ State.reset.ring.mem, c = none := fun _ => List.eq_of_mem_replicate
  refine ⟨rfl, rfl, rfl, fun p hp => ?_, rfl, rfl, rfl, rfl, rfl, cells, rfl, rfl, rfl, rfl, rfl, rfl, rfl, rfl, rfl,
    rfl⟩
  rw [ports p hp]
  decide

/-- Settles O1: the words and codes are closed terms, and the decoder computes on them. -/
theorem writtenOutWordsDecode : Obligations.WrittenOutWordsDecode := by
  unfold Obligations.WrittenOutWordsDecode
  decide

end Sys2Proof.Machine
end

section
/-! PROOF. Who stores in host memory (20_memory.md R71 to R74, R88): of the rows RD_LOOP alone, at the READ's next
address, and a host task where the address is admitted. -/

namespace Sys2Proof.Machine

/-! ### The operations that keep host memory -/

@[simp] theorem State.openIssue_hmem (s : State) (h : Nat) : (s.openIssue h).hmem = s.hmem := by
  rcases State.openIssue_cases s h with ⟨_, e⟩ | ⟨_, e⟩ <;> rw [e]

@[simp] theorem State.closeIssue_hmem (s : State) (h : Nat) : (s.closeIssue h).hmem = s.hmem := by
  rcases State.closeIssue_cases s h with ⟨_, e⟩ | ⟨_, e⟩ <;> rw [e]

@[simp] theorem State.readIssue_hmem (s : State) (h : Nat) : (s.readIssue h).hmem = s.hmem := by
  rcases State.readIssue_cases s h with ⟨_, e⟩ | ⟨_, _, e⟩ | ⟨_, _, e⟩ <;> rw [e]

@[simp] theorem State.writeIssue_hmem (s : State) (h : Nat) : (s.writeIssue h).hmem = s.hmem := by
  rcases State.writeIssue_cases s h with ⟨_, e, _⟩ | ⟨_, _, _, e⟩ <;> rw [e]

@[simp] theorem State.issueBody_hmem (s : State) (h : Nat) (k : Command) : (s.issueBody h k).hmem = s.hmem := by
  cases k <;> simp [State.issueBody]

@[simp] theorem State.hostCmd_hmem (s : State) (h : Nat) (w : Word) : (s.hostCmd h w).hmem = s.hmem := by
  rcases State.hostCmd_cases s h w with ⟨_, e⟩ | ⟨_, _, e⟩ | ⟨_, _, _, e⟩ | ⟨_, _, _, _, e⟩ <;> simp [e]

/-- PRODUCER_STEP reads host memory and writes none (43_write_engine.md R210). -/
theorem State.hmem_of_produce {s t : State} {agent : Agent} {port : Option Nat} (e : s.produce agent port = .ok t) :
    t.hmem = s.hmem := by
  rcases State.produce_eq_ok e with ⟨_, rfl⟩ | ⟨_, _, _, _, rfl⟩ <;> rfl

/-- A meaning that goes to one state with the same host memory, or is skipped. -/
theorem hmem_of_ite {c : Prop} [Decidable c] {s u t : State}
    (e : (if c then .next u else .next s : Host.Outcome State Fault Refusal) = .next t) (keeps : u.hmem = s.hmem) :
    t.hmem = s.hmem := by
  split_ifs at e <;> obtain rfl := Host.Outcome.next.inj e
  · exact keeps
  · rfl

/-! ### The rows -/

theorem execIsrService_hmem {s t : State} (e : execIsrService s = .next t) : t.hmem = s.hmem := by
  rcases execIsrService_cases e with rfl | ⟨_, u, received, produced⟩
  · rfl
  have half : u.hmem = s.hmem := by rcases received with ⟨_, rfl⟩ | ⟨_, _, _, rfl⟩ <;> rfl
  rcases produced with ⟨_, rfl⟩ | ⟨_, e⟩
  · exact half
  · exact (State.hmem_of_produce e).trans half

/-- RD_LOOP stores at most one byte, at the READ's next address (42_read_engine.md R172). -/
theorem execRdLoop_hmem {s t : State} {h : Nat} (e : execRdLoop h s = .next t) :
    t.hmem = s.hmem ∨ ∃ b, t.hmem = Memory.write s.hmem s.rd.nextAddr.toNat b := by
  rcases execRdLoop_cases e with rfl | ⟨_, _, ⟨_, rfl⟩ | ⟨_, _, rfl⟩ | ⟨b, _, _, _, _, rfl⟩⟩
  · exact .inl rfl
  · exact .inl rfl
  · exact .inl rfl
  · exact .inr ⟨b, rfl⟩

/-- Every row but RD_LOOP keeps host memory. -/
theorem exec_hmem_of_ne_rdLoop {i : Instr} {s t : State} (other : ∀ h, i ≠ .rdLoop h) (e : exec i s = .next t) :
    t.hmem = s.hmem := by
  cases i with
  | rdLoop h => exact absurd rfl (other h)
  | openCmd | closeCmd | readCmd | writeCmd => exact Host.Outcome.next.inj e ▸ State.hostCmd_hmem ..
  | illegalCommand h w =>
    rcases execIllegalCommand_cases e with rfl | ⟨_, _, rfl⟩ | ⟨_, _, _, rfl⟩ <;> rfl
  | openIssue h => exact hmem_of_ite e (s.openIssue_hmem h)
  | closeIssue h => exact hmem_of_ite e (s.closeIssue_hmem h)
  | readIssue h => exact hmem_of_ite e (s.readIssue_hmem h)
  | writeIssue h => exact hmem_of_ite e (s.writeIssue_hmem h)
  | rdWoken h => rcases execRdWoken_cases e with rfl | ⟨_, _, rfl⟩ <;> rfl
  | wrPendCheck h =>
    rcases execWrPendCheck_cases e with rfl | ⟨_, _, ⟨_, rfl⟩ | ⟨_, _, _, rfl⟩ | ⟨_, _, _, _, _, _, rfl⟩⟩ <;> rfl
  | wrCheck h => rcases execWrCheck_cases e with rfl | ⟨_, _, ⟨_, rfl⟩ | ⟨_, _, rfl⟩ | ⟨_, _, rfl⟩⟩ <;> rfl
  | isrService => exact execIsrService_hmem e
  | tick => rcases execTick_cases e with rfl | ⟨_, rfl⟩ <;> rfl
  | put b => rcases execPut_cases e with rfl | ⟨_, ⟨_, rfl⟩ | ⟨_, rfl⟩⟩ <;> rfl
  | get => rcases execGet_cases e with rfl | ⟨_, _, ⟨_, rfl⟩ | ⟨_, _, _, rfl⟩⟩ <;> rfl
  | producerStep =>
    rcases execProducerStep_cases e with rfl | ⟨_, _, _, _, e⟩
    · rfl
    · exact (State.hmem_of_produce e).trans s.endCall_hmem
  | _ => exact hmem_of_ite e rfl

/-! ### A store of one byte -/

/-- A store changes the byte at no other address (20_memory.md R73). -/
theorem Memory.read_write_word_ne (m : Memory) {a c : Word} (v : Byte) (ne : c ≠ a) :
    Memory.read (Memory.write m a.toNat v) c.toNat = Memory.read m c.toNat :=
  Memory.read_write_ne m v fun same => ne (BitVec.eq_of_toNat_eq same)

theorem State.hostStore_of_admitted {s : State} {a : Word} (free : s.heldOff = false) (adm : s.admitted a = true)
    (v : Byte) : s.hostStore a v = .next { s with hmem := Memory.write s.hmem a.toNat v } := by
  simp [State.hostStore, State.memWrite, free, adm]

theorem State.hostStore_of_not_admitted {s : State} {a : Word} (adm : s.admitted a = false) (v : Byte) :
    s.hostStore a v = .next s := by
  simp [State.hostStore, State.memWrite, adm]

/-! ### The statements -/

/-- Settles O51: RD_LOOP's one store is at the READ's next address, and every other row keeps host memory. -/
theorem onlyRdLoopStoresToHostMemory : Obligations.OnlyRdLoopStoresToHostMemory := by
  intro i s t e
  refine ⟨fun other => exec_hmem_of_ne_rdLoop other e, fun a ne => ?_⟩
  by_cases loop : ∃ h, i = .rdLoop h
  · obtain ⟨h, rfl⟩ := loop
    rcases execRdLoop_hmem e with same | ⟨b, wrote⟩
    · rw [same]
    · rw [wrote]
      exact Memory.read_write_word_ne s.hmem b ne
  · rw [exec_hmem_of_ne_rdLoop (not_exists.mp loop) e]

/-- Settles O60: an admitted store is one write of host memory, and any other is skipped. -/
theorem hostStoreWritesOneByte : Obligations.HostStoreWritesOneByte := by
  intro s a v free
  refine ⟨fun adm => ?_, fun adm => State.hostStore_of_not_admitted adm v⟩
  exact ⟨_, State.hostStore_of_admitted free adm v, Memory.read_write_self ..,
    fun c ne => Memory.read_write_word_ne s.hmem v ne, fun wf => Memory.wf_write wf a.isLt, rfl⟩

end Sys2Proof.Machine
end

section
/-! PROOF. Decoding and encoding are inverse to each other (30_encoding.md R92, R95, R97 to R99): the command word, the
offset of its CMD register, and the fields of the step word. -/

namespace Sys2Proof

/-! ### Command words -/

/-- The command is a READ or a WRITE, whose size R95 bounds. -/
abbrev Command.isTransfer (k : Command) : Prop := k = .readC ∨ k = .writeC

/-- A command word decodes to its command where the size is in range, and nothing else decodes to it. -/
theorem decodeCommand_eq_ok_iff {w a1 : Word} {k : Command} :
    decodeCommand w a1 = .ok k ↔ k.word = w ∧ (k.isTransfer → a1.toNat < 2 ^ 31) := by
  refine ⟨fun e => ⟨word_of_decodeCommand e, size_of_decodeCommand e⟩, ?_⟩
  rintro ⟨rfl, size⟩
  have inRange : a1.toNat < 2 ^ 31 → a1.getLsbD 31 = false := fun small =>
    Bool.eq_false_iff.mpr fun bit => Nat.not_le.mpr small ((getLsbD_31_iff a1).mp bit)
  cases k with
  | openC a => exact decodeCommand_open a a1
  | closeC => exact decodeCommand_close a1
  | readC => rw [decodeCommand_read, inRange (size (.inl rfl))]; rfl
  | writeC => rw [decodeCommand_write, inRange (size (.inr rfl))]; rfl

/-- An OPEN word as a number (30_encoding.md R92). -/
theorem openWord_toNat (a : BitVec 7) : (Command.openC a).word.toNat = 2 ^ 28 + a.toNat := by
  revert a; decide

/-- Settles O2: each legal form is the word of its command, and a word that decodes has one of these forms. -/
theorem commandDecodeFollowsTheProcedure : Obligations.CommandDecodeFollowsTheProcedure := by
  intro w a1
  have decodes {k : Command} (word : k.word.toNat = w.toNat) (size : k.isTransfer → a1.toNat < 2 ^ 31) :
      decodeCommand w a1 = .ok k := decodeCommand_eq_ok_iff.mpr ⟨BitVec.eq_of_toNat_eq word, size⟩
  refine ⟨fun ⟨op, bits⟩ => decodes ?_ nofun, fun ⟨op, bits⟩ => decodes ?_ nofun,
    fun ⟨op, bits, size⟩ => decodes ?_ fun _ => size, fun ⟨op, bits, size⟩ => decodes ?_ fun _ => size,
    fun notOpen notClose notTransfer => ?_⟩
  · rw [openWord_toNat, BitVec.toNat_ofNat]
    omega
  · show 2 * 2 ^ 28 = w.toNat
    omega
  · show 3 * 2 ^ 28 = w.toNat
    omega
  · show 4 * 2 ^ 28 = w.toNat
    omega
  · cases d : decodeCommand w a1 with
    | error e => exact ⟨e, rfl⟩
    | ok k =>
      obtain ⟨rfl, size⟩ := decodeCommand_eq_ok_iff.mp d
      cases k with
      | openC a =>
        rw [openWord_toNat] at notOpen
        have := a.isLt
        exact absurd (by omega) notOpen
      | closeC => exact absurd (by decide) notClose
      | readC => exact absurd ⟨by decide, by decide, size (.inl rfl)⟩ notTransfer
      | writeC => exact absurd ⟨by decide, by decide, size (.inr rfl)⟩ notTransfer

/-! ### Bus writes of a CMD register -/

/-- Only the offset of CMD[h], as a word, leads to port `h` (10_state.md R42, R45). -/
theorem eq_cmdOffset_of_cmdPortOf {off : BitVec 12} {bw : BusWidth} {h : Nat} (reach : cmdPortOf off bw = some h) :
    off = cmdOffset h ∧ bw = .word ∧ portOk h := by
  rw [cmdPortOf, Option.ite_none_right_eq_some] at reach
  obtain ⟨⟨word, low, high, aligned⟩, port⟩ := reach
  obtain rfl := Option.some.inj port
  rw [Config.maxHost] at high
  have ok : portOk ((off.toNat - 0x100) / 0x20) := by
    show _ < 120
    omega
  refine ⟨BitVec.eq_of_toNat_eq ?_, word, ok⟩
  rw [cmdOffset_toNat ok]
  omega

theorem encode_toInstr (h : Nat) (k : Command) : encode (k.toInstr h) = encodeCommand h k := by
  cases k <;> rfl

theorem wellFormed_toInstr {h : Nat} (ok : portOk h) (k : Command) : (k.toInstr h).WellFormed := by
  cases k <;> exact ok

theorem decode_encodeCommand {h : Nat} (ok : portOk h) (k : Command) {arg1 : Nat → Word}
    (size : (arg1 h).toNat < 2 ^ 31) : decode (encodeCommand h k) arg1 = .ok (k.toInstr h) := by
  have d : decodeCommand k.word (arg1 h) = .ok k := decodeCommand_eq_ok_iff.mpr ⟨rfl, fun _ => size⟩
  simp [decode, encodeCommand, cmdPortOf_cmdOffset ok, d, Except.map]

/-- A bus write that decodes is the encoding of its command (30_encoding.md R90, R92). -/
theorem encode_of_decode_busWrite {off : BitVec 12} {bw : BusWidth} {v : Word} {arg1 : Nat → Word} {i : Instr}
    (e : decode (.busWrite off bw v) arg1 = .ok i) : encode i = .busWrite off bw v ∧ i.WellFormed := by
  cases reach : cmdPortOf off bw with
  | none => simp [decode, reach] at e
  | some h =>
    cases d : decodeCommand v (arg1 h) with
    | error _ => simp [decode, reach, d, Except.map] at e
    | ok k =>
      obtain rfl : k.toInstr h = i := by simpa [decode, reach, d, Except.map] using e
      obtain ⟨rfl, rfl, ok⟩ := eq_cmdOffset_of_cmdPortOf reach
      exact ⟨by rw [encode_toInstr, encodeCommand, word_of_decodeCommand d], wellFormed_toInstr ok k⟩

/-! ### Step words -/

/-- A step word is built from its own fields (notes/assumptions/8.md). -/
theorem mkStepWord_fields (w : BitVec 48) :
    mkStepWord (w.extractLsb' 0 8) (w.extractLsb' 8 8).toNat (w.extractLsb' 16 32) = w := by
  have := w.isLt
  apply BitVec.eq_of_toNat_eq
  rw [mkStepWord_toNat]
  simp only [BitVec.extractLsb'_toNat, Nat.shiftRight_eq_div_pow]
  omega

/-- The port field holds every port number (10_state.md R42). -/
theorem portField_toNat {h : Nat} (ok : portOk h) : (BitVec.ofNat 8 h).toNat = h := by
  have : h < 120 := ok
  rw [BitVec.toNat_ofNat]
  omega

theorem stepOfPort_eq_ok_iff {port : Nat} {opnd : Word} {mk : Nat → Instr} {i : Instr} :
    stepOfPort port opnd mk = .ok i ↔ portOk port ∧ opnd = 0#32 ∧ mk port = i := by
  rw [stepOfPort]
  split_ifs <;> simp_all

theorem stepOfNoPort_eq_ok_iff {port : Nat} {opndOk : Bool} {i j : Instr} :
    stepOfNoPort port opndOk i = .ok j ↔ port = 0 ∧ opndOk = true ∧ i = j := by
  rw [stepOfNoPort]
  split_ifs <;> simp_all

/-- A byte's operand keeps the byte. -/
theorem setWidth_byte_of_lt {opnd : Word} (small : opnd.toNat < 256) : (opnd.setWidth 8).setWidth 32 = opnd := by
  apply BitVec.eq_of_toNat_eq
  simp only [BitVec.toNat_setWidth]
  omega

/-- A step of a port that decodes has its own encoding, where its row of the encoder has the port and no operand. -/
theorem encode_of_stepOfPort {w : BitVec 48} {code : BitVec 8} {mk : Nat → Instr} {i : Instr}
    (kind : w.extractLsb' 0 8 = code)
    (e : stepOfPort (w.extractLsb' 8 8).toNat (w.extractLsb' 16 32) mk = .ok i)
    (row : ∀ h, encode (mk h) = .stepWord (mkStepWord code h 0#32)) (wf : ∀ h, portOk h → (mk h).WellFormed) :
    encode i = .stepWord w ∧ i.WellFormed := by
  obtain ⟨ok, clear, rfl⟩ := stepOfPort_eq_ok_iff.mp e
  exact ⟨by rw [row, ← kind, ← clear, mkStepWord_fields], wf _ ok⟩

/-- A step of no port that decodes has its own encoding, where its row of the encoder has the operand it was read
from. -/
theorem encode_of_stepOfNoPort {w : BitVec 48} {code : BitVec 8} {opndOk : Bool} {i j : Instr}
    (kind : w.extractLsb' 0 8 = code) (e : stepOfNoPort (w.extractLsb' 8 8).toNat opndOk j = .ok i)
    (row : opndOk = true → encode j = .stepWord (mkStepWord code 0 (w.extractLsb' 16 32)) ∧ j.WellFormed) :
    encode i = .stepWord w ∧ i.WellFormed := by
  obtain ⟨noPort, ok, rfl⟩ := stepOfNoPort_eq_ok_iff.mp e
  obtain ⟨own, wf⟩ := row ok
  exact ⟨by rw [own, ← noPort, ← kind, mkStepWord_fields], wf⟩

/-- A step word that decodes is its instruction's encoding, by the rows of the kind codes (30_encoding.md R99). -/
theorem encode_of_decodeStep {w : BitVec 48} {i : Instr} (e : decodeStep w = .ok i) :
    encode i = .stepWord w ∧ i.WellFormed := by
  simp only [decodeStep] at e
  split at e
  -- ILLEGAL_COMMAND, whose operand is the command word.
  case h_5 kind =>
    split_ifs at e with ok illegal
    cases e
    exact ⟨by rw [encode, ← kind, mkStepWord_fields], ok, illegal⟩
  -- RX_ARRIVE and PUT, whose operand is a byte.
  case h_21 kind | h_24 kind =>
    refine encode_of_stepOfNoPort kind e fun small => ⟨?_, trivial⟩
    rw [encode, setWidth_byte_of_lt (of_decide_eq_true small)]
  -- OTHER_CAUSE, whose operand is the bit number less one.
  case h_23 kind =>
    refine encode_of_stepOfNoPort kind e fun small => ⟨?_, Nat.le_add_left .., of_decide_eq_true small⟩
    rw [encode, Nat.add_sub_cancel, BitVec.ofNat_toNat, BitVec.setWidth_eq]
  -- A kind code that R99 does not list.
  case h_27 => cases e
  -- The other steps of no port.
  case h_17 kind | h_18 kind | h_19 kind | h_20 kind | h_22 kind | h_25 kind | h_26 kind =>
    refine encode_of_stepOfNoPort kind e fun clear => ⟨?_, trivial⟩
    rw [encode, of_decide_eq_true clear]
  -- The other steps of a port.
  all_goals exact encode_of_stepOfPort ‹_› e (fun _ => rfl) fun _ ok => ok

/-- Settles O4: an entry that decodes is a bus write of a CMD register or a step word. -/
theorem decodedEntryIsItsEncoding : Obligations.DecodedEntryIsItsEncoding := by
  intro inp arg1 i e
  cases inp with
  | busWrite off bw v => exact encode_of_decode_busWrite e
  | stepWord w => exact encode_of_decodeStep e
  | busRead | hostStore | reset => cases e

/-- Settles O3: a command by its own word, and a step by the fields of the step word its row of the encoder builds. -/
theorem decodeOfEncodeIsTheInstruction : Obligations.DecodeOfEncodeIsTheInstruction := by
  intro i arg1 wf small
  cases i with
  | openCmd h a => exact decode_encodeCommand wf (.openC a) (small h)
  | closeCmd h => exact decode_encodeCommand wf .closeC (small h)
  | readCmd h => exact decode_encodeCommand wf .readC (small h)
  | writeCmd h => exact decode_encodeCommand wf .writeC (small h)
  | illegalCommand h w =>
    obtain ⟨ok, illegal⟩ := wf
    simp [encode, decode, decodeStep, portField_toNat ok, ok, illegal]
  | openIssue h | closeIssue h | readIssue h | writeIssue h | opBuild h | rdLoop h | rdWaitWake h | rdWoken h | rdExit h
  | wrPendCheck h | wrDrain h | wrCheck h | wrWaitWake h | wrWaitTimeout h | wrExit h =>
    simp [encode, decode, decodeStep, portField_toNat wf, stepOfPort_eq_ok_iff, wf]
  | isrService | rtExpire | pwExpire | tick | txRequest | get | producerStep =>
    simp [encode, decode, decodeStep, stepOfNoPort_eq_ok_iff]
  | rxArrive b | put b =>
    have byte : b.toNat % 4294967296 < 256 := by omega
    simp [encode, decode, decodeStep, stepOfNoPort_eq_ok_iff, byte]
  | otherCause k =>
    obtain ⟨low, high⟩ := wf
    have operand : (k - 1) % 4294967296 = k - 1 := by omega
    simp [encode, decode, decodeStep, stepOfNoPort_eq_ok_iff, operand, show k - 1 < 7 by omega, Nat.sub_add_cancel low]

end Sys2Proof
end

section
/-! PROOF. A step runs the head of the schedule, and what it decodes to (45_lifecycle.md R289, 60_exceptions.md R301;
notes/assumptions/1.md). -/

namespace Sys2Proof.Machine

/-- An entry that decodes runs its instruction. -/
theorem runInput_of_decode_ok {inp : Input} {s : State} {i : Instr} (d : decode inp s.arg1Of = .ok i) :
    runInput inp s = exec i s := by
  cases inp with
  | busWrite off bw v =>
    cases reach : cmdPortOf off bw with
    | none => simp [decode, reach] at d
    | some h => simp [runInput, reach, d]
  | stepWord w => simp [runInput, d]
  | busRead | hostStore | reset => cases d

/-- A bus write of a CMD register that does not decode runs the row ILLEGAL_COMMAND (45_lifecycle.md R291). -/
theorem runInput_busWrite_of_decode_error {off : BitVec 12} {bw : BusWidth} {v : Word} {s : State} {h : Nat}
    {e : DecodeError} (reach : cmdPortOf off bw = some h) (d : decode (.busWrite off bw v) s.arg1Of = .error e) :
    runInput (.busWrite off bw v) s = exec (.illegalCommand h v) s := by
  simp [runInput, reach, d]

/-- A step word that does not decode is refused (notes/assumptions/18.md). -/
theorem runInput_stepWord_of_decode_error {w : BitVec 48} {s : State} {e : DecodeError}
    (d : decode (.stepWord w) s.arg1Of = .error e) : runInput (.stepWord w) s = .refused (.undecodable e) := by
  simp [runInput, d]

theorem step_of_sched_nil {s : State} (idle : s.sched = []) : step s = .next s := by
  simp [step, idle]

theorem step_of_sched_cons {s : State} {inp : Input} {rest : List Input} (head : s.sched = inp :: rest) :
    step s = runInput inp (s.popInput rest) := by
  simp [step, head]

/-- Settles O5: the head runs on the state without it, whose ARG1 registers are the same. -/
theorem stepRunsTheDecodedInstruction : Obligations.StepRunsTheDecodedInstruction := by
  intro s inp rest
  refine ⟨step_of_sched_nil, fun head => ⟨step_of_sched_cons head, fun i d => ?_, ?_, ?_⟩⟩
  · exact (step_of_sched_cons head).trans (runInput_of_decode_ok d)
  · rintro off v e h rfl reach d
    exact (step_of_sched_cons head).trans (runInput_busWrite_of_decode_error reach d)
  · rintro w e rfl d
    exact (step_of_sched_cons head).trans (runInput_stepWord_of_decode_error d)

end Sys2Proof.Machine
end

section
/-! PROOF. The rows PUT and GET at their calls (40_ring_buffer.md R120 to R122): each is its sub-operation run where the
call has returned, and is skipped where it stands uncalled (notes/assumptions/2.md, 6.md). -/

namespace Sys2Proof.Machine

/-! ### PUT -/

theorem exec_put_of_called {s : State} {b : Byte} (called : s.call = some (.put b)) :
    exec (.put b) s = .next (s.endCall.putByte .isr b).2 := if_pos called

theorem exec_put_of_not_called {s : State} {b : Byte} (idle : s.call ≠ some (.put b)) :
    exec (.put b) s = .next s := if_neg idle

/-- Full: the byte is dropped (40_ring_buffer.md R120). -/
theorem exec_put_full {s : State} {b : Byte} (called : s.call = some (.put b)) (full : s.ring.cnt = s.ring.cap) :
    exec (.put b) s = .next { s with
      call := none
      history := s.history ++ [⟨0x80#8, .isr, none, [b.setWidth 32], some .putFull⟩] } := by
  rcases State.putByte_cases s.endCall .isr b with ⟨_, e⟩ | ⟨room, _⟩
  · rw [exec_put_of_called called, e]
    rfl
  · exact absurd full room

/-- Not full: the ring takes the byte (40_ring_buffer.md R120). -/
theorem exec_put_room {s : State} {b : Byte} (called : s.call = some (.put b)) (room : s.ring.cnt ≠ s.ring.cap) :
    exec (.put b) s = .next { s with
      ring := s.ring.push b
      call := none
      history := s.history ++ [⟨0x80#8, .isr, none, [b.setWidth 32], some .putOk⟩] } := by
  rcases State.putByte_cases s.endCall .isr b with ⟨full, _⟩ | ⟨_, e⟩
  · exact absurd full room
  · rw [exec_put_of_called called, e]
    rfl

/-! ### GET -/

theorem exec_get_of_called {s : State} {h : Nat} (called : s.call = some (.get h)) :
    exec .get s = atomicStep s ((s.endCall.getByte .host (some h)).andThen fun r => .ok r.2) := by
  simp [exec, execGet, called]

theorem exec_get_of_not_called {s : State} (idle : ∀ h, s.call ≠ some (.get h)) : exec .get s = .next s := by
  rcases execGet_eq s with ⟨_, skipped⟩ | ⟨h, called, _⟩
  · exact skipped
  · exact absurd called (idle h)

/-- Empty: nothing is answered (40_ring_buffer.md R121). -/
theorem exec_get_empty {s : State} {h : Nat} (called : s.call = some (.get h)) (empty : s.ring.cnt = 0) :
    exec .get s = .next { s with
      call := none
      history := s.history ++ [⟨0x81#8, .host, some h, [], some .gotEmpty⟩] } := by
  rcases State.getByte_cases s.endCall .host (some h) with ⟨_, e⟩ | ⟨left, _⟩ | ⟨_, left, _⟩
  · rw [exec_get_of_called called, e]
    rfl
  · exact absurd empty left
  · exact absurd empty left

/-- Not empty: the oldest byte is answered and leaves the ring (40_ring_buffer.md R121). -/
theorem exec_get_byte {s : State} {h : Nat} {b : Byte} (called : s.call = some (.get h)) (left : s.ring.cnt ≠ 0)
    (oldest : s.ring.mem[s.ring.rd]?.getD none = some b) :
    exec .get s = .next { s with
      ring := s.ring.pop
      call := none
      history := s.history ++ [⟨0x81#8, .host, some h, [], some (.gotByte b)⟩] } := by
  rcases State.getByte_cases s.endCall .host (some h) with ⟨empty, _⟩ | ⟨_, unwritten, _⟩ | ⟨c, _, cell, e⟩
  · exact absurd empty left
  · cases oldest.symm.trans unwritten
  · obtain rfl : b = c := Option.some.inj (oldest.symm.trans cell)
    rw [exec_get_of_called called, e]
    rfl

/-- Settles O33: the rows at their calls, by the ring being full or not, empty or not, and the rows uncalled. -/
theorem putAndGetMoveOneByte : Obligations.PutAndGetMoveOneByte := fun _ _ _ =>
  ⟨fun called => ⟨exec_put_full called, exec_put_room called⟩, exec_put_of_not_called,
    fun called => ⟨exec_get_empty called, exec_get_byte called⟩, exec_get_of_not_called⟩

end Sys2Proof.Machine
end

section
/-! PROOF. Who moves the ring (40_ring_buffer.md R122; 10_state.md R33): the producer side is ISR_SERVICE's PUT, the
consumer side RD_LOOP's GET, OP_BUILD empties the ring, and every other row keeps it whole. -/

namespace Sys2Proof.Machine

/-! ### The operations that keep the ring -/

@[simp] theorem State.issueBody_ring (s : State) (h : Nat) (k : Command) : (s.issueBody h k).ring = s.ring := by
  cases k with
  | openC _ => rcases State.openIssue_cases s h with ⟨_, e⟩ | ⟨_, e⟩ <;> simp [State.issueBody, e]
  | closeC => rcases State.closeIssue_cases s h with ⟨_, e⟩ | ⟨_, e⟩ <;> simp [State.issueBody, e]
  | readC => rcases State.readIssue_cases s h with ⟨_, e⟩ | ⟨_, _, e⟩ | ⟨_, _, e⟩ <;> simp [State.issueBody, e]
  | writeC => rcases State.writeIssue_cases s h with ⟨_, e, _⟩ | ⟨_, _, _, e⟩ <;> simp [State.issueBody, e]

@[simp] theorem State.hostCmd_ring (s : State) (h : Nat) (w : Word) : (s.hostCmd h w).ring = s.ring := by
  rcases State.hostCmd_cases s h w with ⟨_, e⟩ | ⟨_, _, e⟩ | ⟨_, _, _, e⟩ | ⟨_, _, _, _, e⟩ <;> simp [e]

/-- PRODUCER_STEP does not touch the ring (43_write_engine.md R210). -/
theorem State.ring_of_produce {s t : State} {agent : Agent} {port : Option Nat} (e : s.produce agent port = .ok t) :
    t.ring = s.ring := by
  rcases State.produce_eq_ok e with ⟨_, rfl⟩ | ⟨_, _, _, _, rfl⟩ <;> rfl

/-- A meaning that goes to one state that agrees on a field, or is skipped, keeps the field. -/
theorem field_of_ite {α : Type} (field : State → α) {c : Prop} [Decidable c] {s u t : State}
    (e : (if c then .next u else .next s : Host.Outcome State Fault Refusal) = .next t) (keeps : field u = field s) :
    field t = field s := by
  split_ifs at e <;> obtain rfl := Host.Outcome.next.inj e
  · exact keeps
  · rfl

/-! ### The rows -/

/-- The rows that move the ring: PUT and its caller, GET and its caller, and OP_BUILD (40_ring_buffer.md R122;
45_lifecycle.md R272). -/
def movesRing : Instr → Bool
  | .isrService | .put _ | .rdLoop _ | .get | .opBuild _ => true
  | _ => false

/-- Every other row keeps the ring. -/
theorem exec_ring_of_not_movesRing {i : Instr} {s t : State} (other : movesRing i = false) (e : exec i s = .next t) :
    t.ring = s.ring := by
  cases i with
  | isrService | put | rdLoop | get | opBuild => cases other
  | openCmd | closeCmd | readCmd | writeCmd => exact Host.Outcome.next.inj e ▸ State.hostCmd_ring ..
  | illegalCommand h w =>
    rcases execIllegalCommand_cases e with rfl | ⟨_, _, rfl⟩ | ⟨_, _, _, rfl⟩ <;> rfl
  | openIssue h => exact field_of_ite State.ring e (s.issueBody_ring h (.openC 0#7))
  | closeIssue h => exact field_of_ite State.ring e (s.issueBody_ring h .closeC)
  | readIssue h => exact field_of_ite State.ring e (s.issueBody_ring h .readC)
  | writeIssue h => exact field_of_ite State.ring e (s.issueBody_ring h .writeC)
  | rdWoken h => rcases execRdWoken_cases e with rfl | ⟨_, _, rfl⟩ <;> rfl
  | wrPendCheck h =>
    rcases execWrPendCheck_cases e with rfl | ⟨_, _, ⟨_, rfl⟩ | ⟨_, _, _, rfl⟩ | ⟨_, _, _, _, _, _, rfl⟩⟩ <;> rfl
  | wrCheck h => rcases execWrCheck_cases e with rfl | ⟨_, _, ⟨_, rfl⟩ | ⟨_, _, rfl⟩ | ⟨_, _, rfl⟩⟩ <;> rfl
  | tick => rcases execTick_cases e with rfl | ⟨_, rfl⟩ <;> rfl
  | producerStep =>
    rcases execProducerStep_cases e with rfl | ⟨_, _, _, _, e⟩
    · rfl
    · exact (State.ring_of_produce e).trans s.endCall_ring
  | _ => exact field_of_ite State.ring e rfl

/-- ISR_SERVICE puts and does not get (44_interrupt_handler.md R246). -/
theorem execIsrService_ring_rd {s t : State} (e : execIsrService s = .next t) : t.ring.rd = s.ring.rd := by
  rcases execIsrService_cases e with rfl | ⟨_, u, received, produced⟩
  · rfl
  have half : u.ring.rd = s.ring.rd := by rcases received with ⟨_, rfl⟩ | ⟨_, _, _, rfl⟩ <;> simp
  rcases produced with ⟨_, rfl⟩ | ⟨_, e⟩
  · exact half
  · rw [State.ring_of_produce e, half]

/-- RD_LOOP gets and does not put (42_read_engine.md R172). -/
theorem execRdLoop_ring {s t : State} {h : Nat} (e : execRdLoop h s = .next t) :
    t.ring.mem = s.ring.mem ∧ t.ring.wr = s.ring.wr := by
  rcases execRdLoop_cases e with rfl | ⟨_, _, ⟨_, rfl⟩ | ⟨_, _, rfl⟩ | ⟨_, _, _, _, _, rfl⟩⟩ <;> exact ⟨rfl, rfl⟩

/-- OP_BUILD empties the ring and leaves its cells (45_lifecycle.md R272). -/
theorem execOpBuild_ring_mem {s t : State} {h : Nat} (e : execOpBuild h s = .next t) : t.ring.mem = s.ring.mem := by
  rcases execOpBuild_cases e with rfl | ⟨_, _, rfl⟩ <;> rfl

/-- The row PUT changes the ring at its call alone, and never the read index (40_ring_buffer.md R120, R122). -/
theorem execPut_ring {s t : State} {b : Byte} (e : execPut b s = .next t) :
    (t.ring = s.ring ∨ s.call = some (.put b)) ∧ t.ring.rd = s.ring.rd := by
  rcases execPut_cases e with rfl | ⟨called, ⟨_, rfl⟩ | ⟨_, rfl⟩⟩
  · exact ⟨.inl rfl, rfl⟩
  · exact ⟨.inl rfl, rfl⟩
  · exact ⟨.inr called, rfl⟩

/-- The row GET changes the ring at its call alone, and of it neither a cell nor the write index (40_ring_buffer.md
R121, R122). -/
theorem execGet_ring {s t : State} (e : execGet s = .next t) :
    (t.ring = s.ring ∨ ∃ h, s.call = some (.get h)) ∧ t.ring.mem = s.ring.mem ∧ t.ring.wr = s.ring.wr := by
  rcases execGet_cases e with rfl | ⟨h, called, ⟨_, rfl⟩ | ⟨_, _, _, rfl⟩⟩
  · exact ⟨.inl rfl, rfl, rfl⟩
  · exact ⟨.inl rfl, rfl, rfl⟩
  · exact ⟨.inr ⟨h, called⟩, rfl, rfl⟩

/-! ### The statement -/

/-- The row may write a ring cell or move the write index: ISR_SERVICE, or PUT at its call (40_ring_buffer.md R122). -/
def State.Puts (s : State) (i : Instr) : Prop := i = .isrService ∨ ∃ b, i = .put b ∧ s.call = some (.put b)

/-- The row may take a byte out of the ring: RD_LOOP, or GET at its call (40_ring_buffer.md R122). -/
def State.Gets (s : State) (i : Instr) : Prop := (∃ h, i = .rdLoop h) ∨ (i = .get ∧ ∃ h, s.call = some (.get h))

/-- What a row that moves the ring does to its cells and its two indexes. -/
structure State.RingFrame (i : Instr) (s t : State) : Prop where
  mem : t.ring.mem = s.ring.mem ∨ s.Puts i
  wr : t.ring.wr = s.ring.wr ∨ s.Puts i ∨ ∃ h, i = .opBuild h
  rd : t.ring.rd = s.ring.rd ∨ s.Gets i ∨ ∃ h, i = .opBuild h

theorem State.RingFrame.of_same {i : Instr} {s t : State} (same : t.ring = s.ring) : s.RingFrame i t :=
  ⟨.inl (congrArg Ring.mem same), .inl (congrArg Ring.wr same), .inl (congrArg Ring.rd same)⟩

theorem exec_ringFrame {i : Instr} {s t : State} (e : exec i s = .next t) : s.RingFrame i t := by
  cases i with
  | isrService => exact ⟨.inr (.inl rfl), .inr (.inl (.inl rfl)), .inl (execIsrService_ring_rd e)⟩
  | put b =>
    obtain ⟨same | called, rd⟩ := execPut_ring e
    · exact .of_same same
    · have puts : s.Puts (.put b) := .inr ⟨b, rfl, called⟩
      exact ⟨.inr puts, .inr (.inl puts), .inl rd⟩
  | rdLoop h =>
    obtain ⟨mem, wr⟩ := execRdLoop_ring e
    exact ⟨.inl mem, .inl wr, .inr (.inl (.inl ⟨h, rfl⟩))⟩
  | get =>
    obtain ⟨same | called, mem, wr⟩ := execGet_ring e
    · exact .of_same same
    · exact ⟨.inl mem, .inl wr, .inr (.inl (.inr ⟨rfl, called⟩))⟩
  | opBuild h => exact ⟨.inl (execOpBuild_ring_mem e), .inr (.inr ⟨h, rfl⟩), .inr (.inr ⟨h, rfl⟩)⟩
  | _ => exact .of_same (exec_ring_of_not_movesRing rfl e)

/-- With no call open, as between two steps, a sub-operation's row is skipped (40_ring_buffer.md R122;
43_write_engine.md R210). -/
theorem exec_subOperation_of_no_call {i : Instr} {s : State} (sub : (∃ b, i = .put b) ∨ i = .get ∨ i = .producerStep)
    (idle : s.call = none) : exec i s = .next s := by
  rcases sub with ⟨b, rfl⟩ | rfl | rfl
  · exact exec_put_of_not_called (by simp [idle])
  · exact exec_get_of_not_called (by simp [idle])
  · simp [exec, execProducerStep, idle]

/-- Settles O48: the frame of a row on the ring names the producer, the consumer and OP_BUILD, and under the invariant no
sub-operation stands called. -/
theorem ringHasOneProducerAndOneConsumer : Obligations.RingHasOneProducerAndOneConsumer := by
  intro i s t e
  have f := exec_ringFrame e
  refine ⟨f.mem.resolve_left, fun moved => or_assoc.mp (f.wr.resolve_left moved),
    fun moved => or_assoc.mp (f.rd.resolve_left moved), fun inv sub => ?_⟩
  exact Host.Outcome.next.inj (e.symm.trans (exec_subOperation_of_no_call sub inv.call))

end Sys2Proof.Machine
end

section
/-! PROOF. The timers one by one (41_timeout_timer.md R140 to R146): what a tick does to a timer and to a write wait,
how long an armed timer runs, and what TICK and the two callbacks do. -/

namespace Sys2Proof.Machine

/-! ### A tick of one timer -/

theorem Timer.tick_of_not_armed {t : Timer} (stopped : t.armed = false) : t.tick = t := by
  simp [Timer.tick, stopped]

/-- The last tick expires the timer (41_timeout_timer.md R142). -/
theorem Timer.tick_last {t : Timer} (armed : t.armed = true) (last : t.rem = 1#32) :
    t.tick = { armed := false, rem := 0#32, exp := true } := by
  simp [Timer.tick, armed, last]

/-- Any other tick counts. A count of 0, which no armed timer has, goes round (41_timeout_timer.md R142). -/
theorem Timer.tick_counts {t : Timer} (armed : t.armed = true) (more : t.rem ≠ 1#32) :
    t.tick = { t with rem := t.rem - 1#32 } := by
  have left : t.rem - 1#32 ≠ 0#32 := by bv_omega
  simp [Timer.tick, armed, left]

/-! ### An armed timer runs for its count -/

/-- Fewer ticks than the count come off it one by one. -/
theorem Timer.iterate_tick_of_lt {t : Timer} (armed : t.armed = true) {k : Nat} (before : k < t.rem.toNat) :
    Timer.tick^[k] t = { t with rem := t.rem - BitVec.ofNat 32 k } := by
  induction k with
  | zero => simp
  | succ k ih =>
    have more : t.rem - BitVec.ofNat 32 k ≠ 1#32 := by bv_omega
    rw [Function.iterate_succ_apply', ih (by omega), Timer.tick_counts]
    · congr 1
      bv_omega
    · exact armed
    · exact more

/-- From the tick of the count on, the timer is expired: a tick does nothing to it any more. -/
theorem Timer.iterate_tick_of_le {t : Timer} (armed : t.armed = true) (counts : 0 < t.rem.toNat) {k : Nat}
    (after : t.rem.toNat ≤ k) : Timer.tick^[k] t = { armed := false, rem := 0#32, exp := true } := by
  induction k, after using Nat.le_induction with
  | base =>
    obtain ⟨n, count⟩ : ∃ n, t.rem.toNat = n + 1 := Nat.exists_eq_add_one.mpr counts
    have last : t.rem - BitVec.ofNat 32 n = 1#32 := by bv_omega
    rw [count, Function.iterate_succ_apply', Timer.iterate_tick_of_lt armed (by omega), Timer.tick_last]
    · exact armed
    · exact last
  | succ k _ ih => rw [Function.iterate_succ_apply', ih, Timer.tick_of_not_armed rfl]

/-- Arming takes a count of 0 as 1 (41_timeout_timer.md R140). -/
theorem Timer.arm_rem_toNat (t : Timer) (n : Word) : (t.arm n).rem.toNat = max n.toNat 1 := by
  by_cases zero : n = 0#32
  · simp [Timer.arm, zero]
  · have : 1 ≤ n.toNat := by bv_omega
    simp [Timer.arm, zero, this]

/-- Settles O32: an armed timer counts down while ticks are left and stays expired from its last tick on, and the count
it is armed with is max(n, 1). -/
theorem armedTimerExpiresAfterItsTicks : Obligations.ArmedTimerExpiresAfterItsTicks := by
  intro t n k
  rw [← t.arm_rem_toNat n]
  refine ⟨fun before => ?_, Timer.iterate_tick_of_le rfl (by rw [t.arm_rem_toNat]; omega)⟩
  rw [Timer.iterate_tick_of_lt rfl before]
  exact ⟨rfl, rfl, by bv_omega⟩

/-! ### TICK -/

/-- What TICK leaves: each timer and each port's write wait one tick on (41_timeout_timer.md R142). -/
def State.ticked (s : State) : State :=
  { s with
    rtimer := s.rtimer.tick, pwtimer := s.pwtimer.tick, ports := s.ports.map Port.tick
    history := s.history ++ [⟨0x60#8, .tickSource, none, [], none⟩] }

theorem exec_tick_of_free {s : State} (free : s.heldOff = false) : exec .tick s = .next s.ticked :=
  if_neg (by simp [free])

/-- A port that is not there has no wait, so a tick leaves the reset port it reads as. -/
theorem State.ticked_port (s : State) (h : Nat) : s.ticked.port h = (s.port h).tick :=
  List.getD_map (l := s.ports) (n := h) (d := Port.reset) Port.tick

/-- Settles O31: a tick of a timer that is not armed, at its last tick, and before it, and a tick of a port that is in a
bounded wait and of one that is not. -/
theorem tickCountsTimersAndWaits : Obligations.TickCountsTimersAndWaits := fun s free =>
  ⟨s.ticked, exec_tick_of_free free,
    Timer.tick_of_not_armed, Timer.tick_last, Timer.tick_counts,
    Timer.tick_of_not_armed, Timer.tick_last, Timer.tick_counts,
    fun h waits => (s.ticked_port h).trans (if_pos waits), fun h idle => (s.ticked_port h).trans (if_neg idle),
    rfl, List.length_map ..⟩

/-! ### The callbacks -/

theorem exec_rtExpire_of_expired {s : State} (free : s.heldOff = false) (expired : s.rtimer.exp = true) :
    exec .rtExpire s = .next { s with
      rtimer := { s.rtimer with exp := false }
      rd := { s.rd with timedOut := true }
      rsem := true
      history := s.history ++ [⟨0x50#8, .timer, none, [], none⟩] } :=
  if_pos (by simp [free, expired])

theorem exec_rtExpire_of_not_expired {s : State} (running : s.rtimer.exp = false) : exec .rtExpire s = .next s :=
  if_neg (by simp [running])

theorem exec_pwExpire_of_expired {s : State} (free : s.heldOff = false) (expired : s.pwtimer.exp = true) :
    exec .pwExpire s = .next { s with
      periph := if s.periph.pen = true ∧ s.periph.treq = true
                then { s.periph with txwire := s.periph.txwire ++ [0x00#8], treq := false } else s.periph
      pwtimer := { armed := false, rem := 0#32, exp := false }
      history := s.history ++ [⟨0x51#8, .timer, none, [], none⟩] } := by
  by_cases request : s.periph.pen = true ∧ s.periph.treq = true
  · simp [exec, execPwExpire, free, expired, request, Periph.writeData_eq, placeholder, Timer.stop, State.recordStep]
  · simp [exec, execPwExpire, free, expired, request, Timer.stop, State.recordStep]

theorem exec_pwExpire_of_not_expired {s : State} (running : s.pwtimer.exp = false) : exec .pwExpire s = .next s :=
  if_neg (by simp [running])

/-- Settles O30: each callback with its timer expired and with it not expired. -/
theorem timerCallbacksRunOncePerExpiry : Obligations.TimerCallbacksRunOncePerExpiry := fun _ free =>
  ⟨exec_rtExpire_of_expired free, exec_rtExpire_of_not_expired,
    exec_pwExpire_of_expired free, exec_pwExpire_of_not_expired⟩

end Sys2Proof.Machine
end

section
/-! PROOF. Who arms, stops and counts the two timers (41_timeout_timer.md R148): one frame of a row on both, and the
rows outside it keep them. -/

namespace Sys2Proof.Machine

/-! ### The operations on the two timers -/

/-- RTIMER and PWTIMER. -/
def State.timers (s : State) : Timer × Timer := (s.rtimer, s.pwtimer)

theorem State.openIssue_timers (s : State) (h : Nat) : (s.openIssue h).timers = s.timers := by
  rcases State.openIssue_cases s h with ⟨_, e⟩ | ⟨_, e⟩ <;> rw [e] <;> rfl

theorem State.writeIssue_timers (s : State) (h : Nat) : (s.writeIssue h).timers = s.timers := by
  rcases State.writeIssue_cases s h with ⟨_, e, _⟩ | ⟨_, _, _, e⟩ <;> rw [e] <;> rfl

/-- CLOSE stops both timers where the block is Open, and moves neither where it is not (45_lifecycle.md R274). -/
theorem State.closeIssue_timers (s : State) (h : Nat) :
    (s.closeIssue h).timers = s.timers ∨ (s.closeIssue h).timers = (s.rtimer.stop, s.pwtimer.stop) := by
  rcases State.closeIssue_cases s h with ⟨_, e⟩ | ⟨_, e⟩ <;> rw [e]
  · exact .inl rfl
  · exact .inr rfl

/-- READ arms RTIMER at most (42_read_engine.md R171). -/
theorem State.readIssue_timers (s : State) (h : Nat) :
    (s.readIssue h).timers = s.timers ∨
      (s.readIssue h).timers = (s.rtimer.arm s.cfg.readTimeout, s.pwtimer) := by
  rcases State.readIssue_cases s h with ⟨_, e⟩ | ⟨_, _, e⟩ | ⟨_, _, e⟩ <;> rw [e]
  · exact .inl rfl
  · exact .inl rfl
  · by_cases unbounded : s.cfg.readTimeout = 0#32 ∨ s.cfg.readTimeout = 0xFFFFFFFF#32
    · exact .inl (by simp [State.timers, unbounded])
    · exact .inr (by simp [State.timers, unbounded])

/-- PRODUCER_STEP arms PWTIMER at most, where no byte is left to send (43_write_engine.md R210). -/
theorem State.timers_of_produce {s t : State} {agent : Agent} {port : Option Nat} (e : s.produce agent port = .ok t) :
    t.timers = s.timers ∨ t.timers = (s.rtimer, s.pwtimer.arm s.cfg.pwTimeout) := by
  rcases State.produce_eq_ok e with ⟨_, rfl⟩ | ⟨_, _, _, _, rfl⟩
  · exact .inr rfl
  · exact .inl rfl

/-! ### The rows -/

/-- The rows that may move a timer (41_timeout_timer.md R148). -/
def movesTimers : Instr → Bool
  | .tick | .rtExpire | .pwExpire | .readCmd _ | .readIssue _ | .rdExit _ | .opBuild _ | .closeCmd _ | .closeIssue _
  | .isrService | .producerStep | .wrPendCheck _ => true
  | _ => false

/-- Every other row keeps both timers. -/
theorem exec_timers_of_not_movesTimers {i : Instr} {s t : State} (other : movesTimers i = false)
    (e : exec i s = .next t) : t.timers = s.timers := by
  cases i with
  | tick | rtExpire | pwExpire | readCmd | readIssue | rdExit | opBuild | closeCmd | closeIssue | isrService
  | producerStep | wrPendCheck => cases other
  | openCmd h a =>
    rcases execOpenCmd_cases e with rfl | ⟨_, _, rfl⟩ | ⟨_, _, rfl⟩
    · rfl
    · rfl
    · exact State.openIssue_timers _ h
  | writeCmd h =>
    rcases execWriteCmd_cases e with rfl | ⟨_, _, rfl⟩ | ⟨_, _, _, rfl⟩ | ⟨_, _, _, rfl⟩
    · rfl
    · rfl
    · rfl
    · exact State.writeIssue_timers _ h
  | openIssue h => exact field_of_ite State.timers e (s.openIssue_timers h)
  | writeIssue h => exact field_of_ite State.timers e (s.writeIssue_timers h)
  | illegalCommand h w => rcases execIllegalCommand_cases e with rfl | ⟨_, _, rfl⟩ | ⟨_, _, _, rfl⟩ <;> rfl
  | rdLoop h =>
    rcases execRdLoop_cases e with rfl | ⟨_, _, ⟨_, rfl⟩ | ⟨_, _, rfl⟩ | ⟨_, _, _, _, _, rfl⟩⟩ <;> rfl
  | rdWoken h => rcases execRdWoken_cases e with rfl | ⟨_, _, rfl⟩ <;> rfl
  | wrCheck h => rcases execWrCheck_cases e with rfl | ⟨_, _, ⟨_, rfl⟩ | ⟨_, _, rfl⟩ | ⟨_, _, rfl⟩⟩ <;> rfl
  | put b => rcases execPut_cases e with rfl | ⟨_, ⟨_, rfl⟩ | ⟨_, rfl⟩⟩ <;> rfl
  | get => rcases execGet_cases e with rfl | ⟨_, _, ⟨_, rfl⟩ | ⟨_, _, _, rfl⟩⟩ <;> rfl
  | _ => exact field_of_ite State.timers e rfl

/-- The rows of READ, the command and its issue body. -/
theorem exec_read_timers {i : Instr} {h : Nat} {s t : State} (row : i = .readCmd h ∨ i = .readIssue h)
    (e : exec i s = .next t) :
    t.timers = s.timers ∨ t.timers = (s.rtimer.arm s.cfg.readTimeout, s.pwtimer) := by
  rcases row with rfl | rfl
  · rcases execReadCmd_cases e with rfl | ⟨_, _, rfl⟩ | ⟨_, _, _, rfl⟩ | ⟨_, _, _, rfl⟩
    · exact .inl rfl
    · exact .inl rfl
    · exact .inl rfl
    · exact State.readIssue_timers _ h
  · rcases execReadIssue_cases e with rfl | ⟨_, rfl⟩
    · exact .inl rfl
    · exact s.readIssue_timers h

/-- The rows of CLOSE, the command and its issue body. -/
theorem exec_close_timers {i : Instr} {h : Nat} {s t : State} (row : i = .closeCmd h ∨ i = .closeIssue h)
    (e : exec i s = .next t) : t.timers = s.timers ∨ t.timers = (s.rtimer.stop, s.pwtimer.stop) := by
  rcases row with rfl | rfl
  · rcases execCloseCmd_cases e with rfl | ⟨_, _, rfl⟩ | ⟨_, _, rfl⟩
    · exact .inl rfl
    · exact .inl rfl
    · exact State.closeIssue_timers _ h
  · rcases execCloseIssue_cases e with rfl | ⟨_, rfl⟩
    · exact .inl rfl
    · exact s.closeIssue_timers h

/-- The receive half of ISR_SERVICE moves no timer, and its transmit half is PRODUCER_STEP (44_interrupt_handler.md
R246). -/
theorem execIsrService_timers {s t : State} (e : execIsrService s = .next t) :
    t.timers = s.timers ∨ t.timers = (s.rtimer, s.pwtimer.arm s.cfg.pwTimeout) := by
  rcases execIsrService_cases e with rfl | ⟨_, u, received, produced⟩
  · exact .inl rfl
  rcases received with ⟨_, rfl⟩ | ⟨_, _, _, rfl⟩ <;> rcases produced with ⟨_, rfl⟩ | ⟨_, e⟩
  · exact .inl rfl
  · exact (State.timers_of_produce e :)
  · exact .inl rfl
  · exact (State.timers_of_produce e :)

theorem execProducerStep_timers {s t : State} (e : execProducerStep s = .next t) :
    t.timers = s.timers ∨ t.timers = (s.rtimer, s.pwtimer.arm s.cfg.pwTimeout) := by
  rcases execProducerStep_cases e with rfl | ⟨_, _, _, _, e⟩
  · exact .inl rfl
  · exact (State.timers_of_produce e :)

/-- WR_PEND_CHECK answers a pending request: it arms PWTIMER with no byte left, and stops it where it sends one
(43_write_engine.md R202). -/
theorem execWrPendCheck_timers {s t : State} {h : Nat} (e : execWrPendCheck h s = .next t) :
    t.timers = s.timers ∨ t.timers = (s.rtimer, s.pwtimer.arm s.cfg.pwTimeout) ∨
      t.timers = (s.rtimer, s.pwtimer.stop) := by
  rcases execWrPendCheck_cases e with rfl | ⟨_, _, ⟨_, rfl⟩ | ⟨_, _, _, rfl⟩ | ⟨_, _, _, _, _, _, rfl⟩⟩
  · exact .inl rfl
  · exact .inl rfl
  · exact .inr (.inl rfl)
  · exact .inr (.inr rfl)

/-! ### The statement -/

/-- The row is an owner of RTIMER, and arms or stops it as that owner does (41_timeout_timer.md R148). -/
def State.RtimerOwned (s : State) (i : Instr) (t : State) : Prop :=
  i = .tick ∨ i = .rtExpire ∨
  (∃ h, (i = .readCmd h ∨ i = .readIssue h) ∧ t.rtimer = s.rtimer.arm s.cfg.readTimeout) ∨
  ∃ h, (i = .rdExit h ∨ i = .opBuild h ∨ i = .closeCmd h ∨ i = .closeIssue h) ∧ t.rtimer = s.rtimer.stop

/-- The row is an owner of PWTIMER, and arms or stops it as that owner does (41_timeout_timer.md R148). -/
def State.PwtimerOwned (s : State) (i : Instr) (t : State) : Prop :=
  i = .tick ∨
  ((i = .isrService ∨ i = .producerStep ∨ ∃ h, i = .wrPendCheck h) ∧ t.pwtimer = s.pwtimer.arm s.cfg.pwTimeout) ∨
  ((i = .pwExpire ∨ ∃ h, i = .wrPendCheck h ∨ i = .opBuild h ∨ i = .closeCmd h ∨ i = .closeIssue h) ∧
    t.pwtimer = s.pwtimer.stop)

/-- What a row does to the two timers. -/
structure State.TimerFrame (i : Instr) (s t : State) : Prop where
  rtimer : t.rtimer = s.rtimer ∨ s.RtimerOwned i t
  pwtimer : t.pwtimer = s.pwtimer ∨ s.PwtimerOwned i t

theorem State.TimerFrame.of_same {i : Instr} {s t : State} (same : t.timers = s.timers) : s.TimerFrame i t :=
  ⟨.inl (congrArg Prod.fst same), .inl (congrArg Prod.snd same)⟩

/-- READ moves RTIMER alone. -/
theorem State.TimerFrame.of_read {i : Instr} {h : Nat} {s t : State} (row : i = .readCmd h ∨ i = .readIssue h)
    (e : exec i s = .next t) : s.TimerFrame i t := by
  rcases exec_read_timers row e with same | armed
  · exact .of_same same
  · obtain ⟨r, p⟩ := Prod.mk.inj armed
    exact ⟨.inr (.inr (.inr (.inl ⟨h, row, r⟩))), .inl p⟩

/-- A row that owns the stop of both timers, OPEN's build or CLOSE (45_lifecycle.md R272, R274). -/
theorem State.TimerFrame.of_stops {i : Instr} {h : Nat} {s t : State}
    (row : i = .opBuild h ∨ i = .closeCmd h ∨ i = .closeIssue h)
    (stops : t.timers = s.timers ∨ t.timers = (s.rtimer.stop, s.pwtimer.stop)) : s.TimerFrame i t := by
  rcases stops with same | stopped
  · exact .of_same same
  · obtain ⟨r, p⟩ := Prod.mk.inj stopped
    exact ⟨.inr (.inr (.inr (.inr ⟨h, .inr row, r⟩))), .inr (.inr (.inr ⟨.inr ⟨h, .inr row⟩, p⟩))⟩

/-- A row that PRODUCER_STEP is part of arms PWTIMER alone (43_write_engine.md R210). -/
theorem State.TimerFrame.of_arms {i : Instr} {s t : State} (row : Produces i)
    (arms : t.timers = s.timers ∨ t.timers = (s.rtimer, s.pwtimer.arm s.cfg.pwTimeout)) : s.TimerFrame i t := by
  rcases arms with same | armed
  · exact .of_same same
  · obtain ⟨r, p⟩ := Prod.mk.inj armed
    exact ⟨.inl r, .inr (.inr (.inl ⟨row, p⟩))⟩

theorem exec_timerFrame {i : Instr} {s t : State} (e : exec i s = .next t) : s.TimerFrame i t := by
  cases i with
  | readCmd h => exact .of_read (.inl rfl) e
  | readIssue h => exact .of_read (.inr rfl) e
  | closeCmd h => exact .of_stops (.inr (.inl rfl)) (exec_close_timers (.inl rfl) e)
  | closeIssue h => exact .of_stops (.inr (.inr rfl)) (exec_close_timers (.inr rfl) e)
  | opBuild h =>
    refine .of_stops (.inl rfl) ?_
    rcases execOpBuild_cases e with rfl | ⟨_, _, rfl⟩
    · exact .inl rfl
    · exact .inr rfl
  | rdExit h =>
    rcases execRdExit_cases e with rfl | ⟨_, _, rfl⟩
    · exact .of_same rfl
    · exact ⟨.inr (.inr (.inr (.inr ⟨h, .inl rfl, rfl⟩))), .inl rfl⟩
  | isrService => exact .of_arms (.inl rfl) (execIsrService_timers e)
  | producerStep => exact .of_arms (.inr (.inl rfl)) (execProducerStep_timers e)
  | wrPendCheck h =>
    rcases execWrPendCheck_timers e with same | armed | stopped
    · exact .of_same same
    · exact .of_arms (.inr (.inr ⟨h, rfl⟩)) (.inr armed)
    · obtain ⟨r, p⟩ := Prod.mk.inj stopped
      exact ⟨.inl r, .inr (.inr (.inr ⟨.inr ⟨h, .inl rfl⟩, p⟩))⟩
  | tick => exact ⟨.inr (.inl rfl), .inr (.inl rfl)⟩
  | rtExpire =>
    rcases execRtExpire_cases e with rfl | ⟨_, _, rfl⟩
    · exact .of_same rfl
    · exact ⟨.inr (.inr (.inl rfl)), .inl rfl⟩
  | pwExpire =>
    rcases execPwExpire_cases e with rfl | ⟨_, _, rfl⟩
    · exact .of_same rfl
    · exact ⟨.inl rfl, .inr (.inr (.inr ⟨.inl rfl, rfl⟩))⟩
  | _ => exact .of_same (exec_timers_of_not_movesTimers rfl e)

/-- Settles O50: the frame of a row on the timers names who moved each and how. -/
theorem timersHaveTheirOwners : Obligations.TimersHaveTheirOwners := fun _ _ _ e =>
  ⟨(exec_timerFrame e).rtimer.resolve_left, (exec_timerFrame e).pwtimer.resolve_left⟩

end Sys2Proof.Machine
end

section
/-! PROOF. The read engine (42_read_engine.md R171 to R179): READ's start, then each phase as one equation, and the byte
that arrives between the empty ring and RD_WAIT. -/

namespace Sys2Proof.Machine

/-! ### READ -/

/-- READ on a free port with a legal size: the latch and READ's body (45_lifecycle.md R289). -/
theorem exec_readCmd_of_free {s : State} {h : Nat} (may : s.hostMay h = true) (free : (s.port h).busy = false)
    (legal : (s.port h).arg1.toNat < 2 ^ 31) :
    exec (.readCmd h) s = .next ((s.latched h 0x30000000#32).readIssue h) := by
  have decodes : decodeCommand Command.readC.word (s.port h).arg1 = .ok .readC := by
    have small : ¬ (s.port h).arg1.getLsbD 31 = true := fun big => legal.not_ge ((getLsbD_31_iff _).mp big)
    rw [decodeCommand_read, if_neg small]
  rw [show Instr.readCmd h = Command.readC.toInstr h from rfl, exec_toInstr]
  rcases State.hostCmd_cases s h Command.readC.word with
    ⟨held, _⟩ | ⟨_, busy, _⟩ | ⟨_, _, ⟨_, bad⟩, _⟩ | ⟨_, _, k, ok, e⟩
  · cases may.symm.trans held
  · cases free.symm.trans busy
  · cases decodes.symm.trans bad
  · obtain rfl : Command.readC = k := Except.ok.inj (decodes.symm.trans ok)
    rw [e]
    rfl

/-- RTIMER after READ's start: a timeout that arms it is not 0, so it counts as many ticks (41_timeout_timer.md
R141). -/
theorem Timer.ite_arm (t : Timer) (n : Word) :
    (if n = 0#32 ∨ n = 0xFFFFFFFF#32 then t else t.arm n) =
      if n = 0#32 ∨ n = 0xFFFFFFFF#32 then t else { armed := true, rem := n, exp := false } := by
  split
  · rfl
  · next timed => simp [Timer.arm, (not_or.mp timed).1]

/-- Settles O9: READ is its body on the latched port, whose checks come in R293's order. -/
theorem readCommandStarts : Obligations.ReadCommandStarts := by
  intro s h may free legal
  have port := State.latched_port_self ((State.hostMay_iff s h).mp may).1 0x30000000#32
  rw [exec_readCmd_of_free may free legal]
  rcases State.readIssue_cases (s.latched h 0x30000000#32) h with
    ⟨shut, e⟩ | ⟨is_open, zero, e⟩ | ⟨is_open, size, e⟩ <;>
    rw [e] <;> simp only [port, State.latched_ports, modify_modify]
  · exact ⟨fun _ => rfl, fun is_open => absurd is_open shut, fun is_open => absurd is_open shut⟩
  · rw [port] at zero
    exact ⟨fun shut => absurd is_open shut, fun _ _ => rfl, fun _ size => absurd zero size⟩
  · rw [port] at size
    refine ⟨fun shut => absurd is_open shut, fun _ zero => absurd zero size, fun _ _ => ?_⟩
    rw [Timer.ite_arm]
    rfl

/-! ### RD_LOOP -/

/-- GET moves no admission range. -/
theorem State.admitted_get (s : State) (ring : Ring) (history : List Record) (a : Word) :
    State.admitted { s with ring := ring, history := history } a = s.admitted a := rfl

section
variable {s : State} {h : Nat} (may : s.hostMay h = true) (phase : (s.port h).phase = .rdLoop)
include may phase

theorem exec_rdLoop_of_atPhase : exec (.rdLoop h) s = atomicStep s (s.rdLoop h) :=
  if_pos ((State.atPhase_iff s h _).mpr ⟨may, phase⟩)

theorem exec_rdLoop_finished (finished : s.rd.count = 0#32) :
    exec (.rdLoop h) s = .next { s with
      ports := s.ports.modify h fun q => { q with phase := .rdExit }
      history := s.history ++ [⟨0x22#8, .host, some h, [], none⟩] } := by
  rw [exec_rdLoop_of_atPhase may phase]
  simp [State.rdLoop, finished, State.recordStep, State.goto, State.updPort]

theorem exec_rdLoop_empty (left : s.rd.count ≠ 0#32) (empty : s.ring.cnt = 0) :
    exec (.rdLoop h) s = .next { s with
      rd := { s.rd with wakePending := true }
      ports := s.ports.modify h fun q => { q with phase := if s.cfg.readTimeout = 0#32 then .rdExit else .rdWait }
      history := s.history ++ [⟨0x22#8, .host, some h, [], none⟩, ⟨0x81#8, .host, some h, [], some .gotEmpty⟩] } := by
  rw [exec_rdLoop_of_atPhase may phase]
  simp [State.rdLoop, left, State.getByte, Ring.get, empty, State.recordStep, State.recordSub, State.goto,
    State.updPort]

/-- A queued byte goes to the READ's next address, or the step is stuck there (20_memory.md R71, R74). -/
theorem exec_rdLoop_byte (left : s.rd.count ≠ 0#32) (queued : s.ring.cnt ≠ 0) {b : Byte}
    (oldest : s.ring.mem[s.ring.rd]?.getD none = some b) :
    exec (.rdLoop h) s = if s.admitted s.rd.nextAddr = true then .next { s with
        hmem := Memory.write s.hmem s.rd.nextAddr.toNat b
        ring := s.ring.pop
        rd := { s.rd with count := s.rd.count - 1#32 }
        history := s.history ++ [⟨0x22#8, .host, some h, [], none⟩, ⟨0x81#8, .host, some h, [], some (.gotByte b)⟩] }
      else .next s := by
  rw [exec_rdLoop_of_atPhase may phase]
  by_cases adm : s.admitted s.rd.nextAddr = true <;>
    simp [State.rdLoop, left, State.getByte, Ring.get, queued, oldest, State.recordStep, State.recordSub,
      State.memWrite, State.admitted_get, Ring.pop, adm]

end

/-- Settles O15: the two ways RD_LOOP takes no byte. -/
theorem rdLoopWithoutAByte : Obligations.RdLoopWithoutAByte := fun _ _ may phase =>
  ⟨exec_rdLoop_finished may phase, exec_rdLoop_empty may phase⟩

/-- Settles O16: RD_LOOP with a byte queued is one write of host memory at the READ's next address, if admitted. -/
theorem rdLoopStoresTheOldestByte : Obligations.RdLoopStoresTheOldestByte := by
  intro s h b may phase left queued oldest
  have step := exec_rdLoop_byte may phase left queued oldest
  refine ⟨fun adm => ?_, fun adm => ?_⟩
  · exact ⟨_, step.trans (if_pos adm), Memory.read_write_self ..,
      fun a ne => Memory.read_write_word_ne s.hmem b ne, rfl⟩
  · exact step.trans (if_neg (Bool.eq_false_iff.mp adm))

/-! ### RD_WAIT, RD_WOKEN and RD_EXIT -/

theorem exec_rdWaitWake_of_posted {s : State} {h : Nat} (may : s.hostMay h = true) (phase : (s.port h).phase = .rdWait)
    (posted : s.rsem = true) :
    exec (.rdWaitWake h) s = .next { s with
      rsem := false
      ports := s.ports.modify h fun q => { q with phase := .rdWoken }
      history := s.history ++ [⟨0x23#8, .host, some h, [], none⟩] } :=
  if_pos (by rw [(State.atPhase_iff s h _).mpr ⟨may, phase⟩, posted]; rfl)

theorem exec_rdWaitWake_of_not_posted {s : State} {h : Nat} (quiet : s.rsem = false) :
    exec (.rdWaitWake h) s = .next s :=
  if_neg (by simp [quiet])

/-- Settles O17: RD_WAIT's wake with RSEM set and with RSEM clear. -/
theorem rdWaitWakeTakesRsem : Obligations.RdWaitWakeTakesRsem := fun _ _ may phase =>
  ⟨exec_rdWaitWake_of_posted may phase, exec_rdWaitWake_of_not_posted⟩

/-- Settles O18: RD_WOKEN after a timeout and without one. -/
theorem rdWokenChecksTheTimeout : Obligations.RdWokenChecksTheTimeout := by
  intro s h may phase
  have here := (State.atPhase_iff s h _).mpr ⟨may, phase⟩
  by_cases timedOut : s.rd.timedOut = true
  · simp only [if_pos timedOut]
    exact (if_pos here).trans (if_pos timedOut)
  · simp only [if_neg timedOut]
    exact (if_pos here).trans (if_neg timedOut)

theorem exec_rdExit {s : State} {h : Nat} (may : s.hostMay h = true) (phase : (s.port h).phase = .rdExit) :
    exec (.rdExit h) s = .next { s with
      rtimer := Timer.reset
      rd := { s.rd with active := false }
      ports := s.ports.modify h fun q => { q with result := s.rd.size - s.rd.count, phase := .idle, busy := false }
      history := s.history ++ [⟨0x25#8, .host, some h, [], none⟩] } :=
  if_pos ((State.atPhase_iff s h _).mpr ⟨may, phase⟩)

/-- Settles O19: RD_EXIT's one equation, and the invariant's bound on READ_COUNT, by which the difference does not
wrap. -/
theorem rdExitReturnsTheCount : Obligations.RdExitReturnsTheCount := by
  intro s h may phase
  refine ⟨exec_rdExit may phase, fun inv => ?_⟩
  have read : (s.rd.size - s.rd.count).toNat = s.rd.size.toNat - s.rd.count.toNat :=
    BitVec.toNat_sub_of_le inv.read_le
  exact ⟨read, read ▸ Nat.sub_le _ _⟩

/-! ### The byte that arrives before RD_WAIT -/

theorem exec_rxArrive_of_ready {s : State} {b : Byte} (on : s.periph.pen = true) (ready : s.periph.rreq = false) :
    exec (.rxArrive b) s = .next { s with
      periph := { s.periph with prxd := some b, rreq := true, pris := s.periph.pris ||| 0x01#8,
                                rxwire := s.periph.rxwire ++ [b] }
      history := s.history ++ [⟨0x70#8, .peripheral, none, [b.setWidth 32], none⟩] } :=
  if_pos (by rw [on, ready]; rfl)

/-- What a READ waits on and reads is the same: the ring, READ's registers, RSEM and the ports. -/
structure State.ReadSideKept (s t : State) : Prop where
  ring : t.ring = s.ring
  rd : t.rd = s.rd
  rsem : t.rsem = s.rsem
  ports : t.ports = s.ports

/-- PRODUCER_STEP is the write side's (43_write_engine.md R210). -/
theorem State.readSideKept_of_produce {s t : State} {agent : Agent} {port : Option Nat}
    (e : s.produce agent port = .ok t) : s.ReadSideKept t := by
  rcases State.produce_eq_ok e with ⟨_, rfl⟩ | ⟨_, _, _, _, rfl⟩ <;> exact ⟨rfl, rfl, rfl, rfl⟩

theorem State.produce_ne_stuck {s : State} (adm : s.producerAdmitted = true) (agent : Agent) (port : Option Nat) :
    s.produce agent port ≠ .stuck := by
  intro stuck
  rcases State.produce_cases s agent port with ⟨_, e⟩ | ⟨_, _, _, _, e⟩ | ⟨_, _, _, e⟩ | ⟨left, refused, _⟩
  · cases e.symm.trans stuck
  · cases e.symm.trans stuck
  · cases e.symm.trans stuck
  · simp [State.producerAdmitted, left, refused] at adm

/-- An enabled ISR_SERVICE with a byte pending takes it in and, whatever it sends, leaves the read side as its receive
half does: R301 enables it with its host-memory read admitted, so it is not stuck (44_interrupt_handler.md R246). -/
theorem exec_isrService_receives {s t : State} {b : Byte} (on : s.isrEnabled = true) (pending : s.periph.rreq = true)
    (byte : s.periph.prxd = some b) (e : exec .isrService s = .next t) :
    (s.afterSnapshot.afterRx b).ReadSideKept t := by
  have received : s.isrService =
      if s.periph.treq = true then (s.afterSnapshot.afterRx b).produce .isr none
      else .ok (s.afterSnapshot.afterRx b) := by
    rw [State.isrService_eq, if_pos pending, show s.afterSnapshot.serviceRx = _ from State.serviceRx_eq byte]
    rfl
  rw [show exec .isrService s = atomicStep s s.isrService from if_pos on, received] at e
  by_cases sends : s.periph.treq = true
  · rw [if_pos sends] at e
    have adm : s.producerAdmitted = true := by simpa [sends] using (Bool.and_eq_true_iff.mp on).2
    rcases atomicStep_eq_next e with sent | ⟨stuck, _⟩
    · exact State.readSideKept_of_produce sent
    · exact absurd stuck (State.produce_ne_stuck (s := s.afterSnapshot.afterRx b) adm .isr none)
  · rw [if_neg sends] at e
    obtain rfl := Host.Outcome.next.inj e
    exact ⟨rfl, rfl, rfl, rfl⟩

theorem State.afterRx_ring_of_room {s : State} (room : s.ring.cnt ≠ s.ring.cap) (b : Byte) :
    (s.afterRx b).ring = s.ring.push b := if_neg room

theorem Ring.queued_push_of_empty {r : Ring} (inv : r.Inv) (empty : r.cnt = 0) (b : Byte) :
    (r.push b).queued = [some b] := by
  have none_queued : r.queued = [] := List.length_eq_zero_iff.mp (r.length_queued.trans empty)
  rw [Ring.queued_push inv (empty ▸ inv.cap_pos), none_queued, List.nil_append]

/-- Settles O56: RD_LOOP sets WAKE_PENDING in the step that finds the ring empty, so ISR_SERVICE posts RSEM when it
queues the byte, and RD_WAIT finds it. -/
theorem noLostWake : Obligations.NoLostWake := by
  intro s s1 s2 s3 h b inv may phase left empty waits on ready looped arrived enabled serviced
  obtain rfl := Host.Outcome.next.inj (looped.symm.trans (exec_rdLoop_empty may phase left empty))
  obtain rfl := Host.Outcome.next.inj (arrived.symm.trans (exec_rxArrive_of_ready on ready))
  obtain ⟨ring, rd, rsem, ports⟩ := exec_isrService_receives enabled rfl rfl serviced
  have room : s.ring.cnt ≠ s.ring.cap := empty ▸ inv.ring.cap_pos.ne
  have posted : s3.rsem = true := rsem.trans (Bool.or_true _)
  have pushed : s3.ring = s.ring.push b := ring.trans (State.afterRx_ring_of_room room b)
  refine ⟨posted, congrArg ReadXfer.wakePending rd, ?_, fun free => ?_⟩
  · rw [pushed, Ring.queued_push_of_empty inv.ring empty]
  · have exists_port := ((State.hostMay_iff s h).mp may).1
    have port : s3.port h = { s.port h with phase := .rdWait } := by
      rw [State.port, ports]
      exact (State.port_updPort_self exists_port _).trans (by simp only [if_neg waits])
    have may3 : s3.hostMay h = true := (State.hostMay_iff s3 h).mpr ⟨by simpa [ports] using exists_port, free⟩
    refine ⟨_, exec_rdWaitWake_of_posted may3 (by rw [port]) posted, ?_⟩
    exact congrArg Port.phase (State.port_updPort_self ((State.hostMay_iff s3 h).mp may3).1 _)

end Sys2Proof.Machine
end

section
/-! PROOF. The write engine (43_write_engine.md R201 to R210): WRITE's start, PRODUCER_STEP at its call, each phase as
one equation, and the two ways a wait ends. -/

namespace Sys2Proof.Machine

/-! ### WRITE -/

/-- A command whose word decodes on a free port: the latch and the command's body (45_lifecycle.md R289). -/
theorem exec_toInstr_of_free {s : State} {h : Nat} {k : Command} (may : s.hostMay h = true)
    (free : (s.port h).busy = false) (decodes : decodeCommand k.word (s.port h).arg1 = .ok k) :
    exec (k.toInstr h) s = .next ((s.latched h k.word).issueBody h k) := by
  rw [exec_toInstr]
  rcases State.hostCmd_cases s h k.word with ⟨held, _⟩ | ⟨_, busy, _⟩ | ⟨_, _, ⟨_, bad⟩, _⟩ | ⟨_, _, j, ok, e⟩
  · cases may.symm.trans held
  · cases free.symm.trans busy
  · cases decodes.symm.trans bad
  · obtain rfl : k = j := Except.ok.inj (decodes.symm.trans ok)
    rw [e]
    rfl

theorem decodeCommand_write_of_lt {n : Word} (legal : n.toNat < 2 ^ 31) :
    decodeCommand Command.writeC.word n = .ok .writeC := by
  rw [decodeCommand_write, if_neg fun big => legal.not_ge ((getLsbD_31_iff _).mp big)]

theorem exec_writeCmd_of_free {s : State} {h : Nat} (may : s.hostMay h = true) (free : (s.port h).busy = false)
    (legal : (s.port h).arg1.toNat < 2 ^ 31) :
    exec (.writeCmd h) s = .next ((s.latched h 0x40000000#32).writeIssue h) :=
  exec_toInstr_of_free may free (decodeCommand_write_of_lt legal)

/-- WRITE's body where a check of R293 holds: the first that does answers (43_write_engine.md R201). -/
theorem State.writeIssue_refused {s : State} {h : Nat}
    (refused : s.life.lstate ≠ .opened ∨ (s.port h).arg1 = 0#32 ∨ s.wr.count ≠ 0#32) :
    s.writeIssue h = { s with
      ports := s.ports.modify h fun q =>
        { q with
          result := if s.life.lstate ≠ .opened then 0xFFFFFFFE#32
                    else if (s.port h).arg1 = 0#32 then 0#32 else 0xFFFFFFFF#32
          phase := .idle, busy := false }
      history := s.history ++ [⟨0x04#8, .host, some h, [(s.port h).arg0, (s.port h).arg1], none⟩] } := by
  rcases s.writeIssue_cases h with ⟨r, e, why⟩ | ⟨is_open, size, idle, _⟩
  · rw [e]
    rcases why with ⟨shut, rfl⟩ | ⟨is_open, zero, rfl⟩ | ⟨is_open, size, _, rfl⟩
    · simp only [if_pos shut]
    · simp only [if_neg (not_not.mpr is_open), if_pos zero]
    · simp only [if_neg (not_not.mpr is_open), if_neg size]
  · rcases refused with shut | zero | busy
    · exact absurd is_open shut
    · exact absurd zero size
    · exact absurd idle busy

/-- WRITE's body where no check of R293 holds (43_write_engine.md R201). -/
theorem State.writeIssue_starts {s : State} {h : Nat} (is_open : s.life.lstate = .opened)
    (size : (s.port h).arg1 ≠ 0#32) (idle : s.wr.count = 0#32) :
    s.writeIssue h = { s with
      wr := { buf := (s.port h).arg0, size := (s.port h).arg1, count := (s.port h).arg1 }
      ports := s.ports.modify h fun q => { q with phase := .wrPendCheck }
      history := s.history ++ [⟨0x04#8, .host, some h, [(s.port h).arg0, (s.port h).arg1], none⟩] } := by
  rcases s.writeIssue_cases h with ⟨_, _, ⟨shut, _⟩ | ⟨_, zero, _⟩ | ⟨_, _, busy, _⟩⟩ | ⟨_, _, _, e⟩
  · exact absurd is_open shut
  · exact absurd zero size
  · exact absurd idle busy
  · exact e

/-- Settles O10: WRITE is its body on the latched port, whose checks come in R293's order. -/
theorem writeCommandStarts : Obligations.WriteCommandStarts := by
  intro s h may free legal
  have port := State.latched_port_self ((State.hostMay_iff s h).mp may).1 0x40000000#32
  rw [exec_writeCmd_of_free may free legal]
  refine ⟨fun refused => ?_, fun is_open size idle => ?_⟩
  · rw [State.writeIssue_refused (by rwa [port])]
    simp only [port, State.latched_ports, modify_modify]
    rfl
  · rw [State.writeIssue_starts (s := s.latched h 0x40000000#32) is_open (by rwa [port]) idle]
    simp only [port, State.latched_ports, modify_modify]
    rfl

/-! ### PRODUCER_STEP at its call -/

theorem producerAgent_eq (port : Option Nat) : producerAgent port = if port = none then .isr else .host := by
  cases port <;> rfl

/-- The data register takes a byte into a pending request (44_interrupt_handler.md R243). -/
theorem Periph.writeData_of_request {p : Periph} (on : p.pen = true) (request : p.treq = true) (v : Byte) :
    p.writeData v = { p with txwire := p.txwire ++ [v], treq := false } := by
  rw [Periph.writeData_eq, if_pos ⟨on, request⟩]

/-- PRODUCER_STEP with a request pending, as it is always called, and a byte to send (43_write_engine.md R210). -/
theorem State.produce_send_of_request {s : State} {v : Byte} (agent : Agent) (port : Option Nat)
    (on : s.periph.pen = true) (request : s.periph.treq = true) (left : s.wr.count ≠ 0#32)
    (adm : s.admitted s.wr.nextAddr = true) (byte : Memory.read s.hmem s.wr.nextAddr.toNat = some v) :
    s.produce agent port = .ok { s with
      periph := { s.periph with txwire := s.periph.txwire ++ [v], treq := false }
      wr := { s.wr with count := s.wr.count - 1#32 }
      wsem := s.wsem || decide (s.wr.count = 1#32)
      history := s.history ++ [⟨0x82#8, agent, port, [], some (.sentByte v)⟩] } := by
  rw [State.produce_send agent port left adm byte, Periph.writeData_of_request on request]

/-- PRODUCER_STEP where the next byte's address is not admitted (20_memory.md R71). -/
theorem State.produce_refused {s : State} (agent : Agent) (port : Option Nat) (left : s.wr.count ≠ 0#32)
    (refused : s.admitted s.wr.nextAddr = false) : s.produce agent port = .stuck := by
  simp [State.produce, left, State.memRead, refused]

section
variable {s : State} {port : Option Nat} (called : s.call = some (.producer port)) (on : s.periph.pen = true)
  (request : s.periph.treq = true)
include called on request

theorem exec_producerStep_of_called :
    exec .producerStep s =
      atomicStep s (s.endCall.produce (if port = none then .isr else .host) port) := by
  simp [exec, execProducerStep, called, on, request, producerAgent_eq]

theorem exec_producerStep_send {v : Byte} (left : s.wr.count ≠ 0#32) (adm : s.admitted s.wr.nextAddr = true)
    (byte : Memory.read s.hmem s.wr.nextAddr.toNat = some v) :
    exec .producerStep s = .next { s with
      periph := { s.periph with txwire := s.periph.txwire ++ [v], treq := false }
      wr := { s.wr with count := s.wr.count - 1#32 }
      wsem := s.wsem || decide (s.wr.count = 1#32)
      call := none
      history := s.history ++ [⟨0x82#8, if port = none then .isr else .host, port, [], some (.sentByte v)⟩] } := by
  rw [exec_producerStep_of_called called on request,
    State.produce_send_of_request (s := s.endCall) _ _ on request left adm byte]
  rfl

theorem exec_producerStep_noData (done : s.wr.count = 0#32) :
    exec .producerStep s = .next { s with
      pwtimer := s.pwtimer.arm s.cfg.pwTimeout
      wsem := true
      call := none
      history := s.history ++ [⟨0x82#8, if port = none then .isr else .host, port, [], some .noData⟩] } := by
  rw [exec_producerStep_of_called called on request, State.produce_noData (s := s.endCall) _ _ done]
  rfl

theorem exec_producerStep_refused (left : s.wr.count ≠ 0#32) (refused : s.admitted s.wr.nextAddr = false) :
    exec .producerStep s = .next s := by
  rw [exec_producerStep_of_called called on request, State.produce_refused (s := s.endCall) _ _ left refused]
  rfl

end

/-- Without its call or a request the row is skipped (notes/assumptions/2.md, 6.md). -/
theorem exec_producerStep_of_not_called {s : State}
    (idle : (∀ p, s.call ≠ some (.producer p)) ∨ s.periph.pen = false ∨ s.periph.treq = false) :
    exec .producerStep s = .next s := by
  rcases execProducerStep_eq s with ⟨_, skipped⟩ | ⟨port, called, on, request, _⟩
  · exact skipped
  · rcases idle with uncalled | off | quiet
    · exact absurd called (uncalled port)
    · cases on.symm.trans off
    · cases request.symm.trans quiet

/-- Settles O20: PRODUCER_STEP at its call, by what is left and whether the byte's address is admitted, and the row
skipped. -/
theorem producerStepSendsOrArms : Obligations.ProducerStepSendsOrArms := fun _ _ =>
  ⟨fun called on request =>
    ⟨fun _ => exec_producerStep_send called on request, exec_producerStep_noData called on request,
      exec_producerStep_refused called on request⟩,
    exec_producerStep_of_not_called⟩

/-! ### WR_PEND_CHECK -/

/-- The state in which WR_PEND_CHECK calls PRODUCER_STEP: the step recorded and PWTIMER stopped (43_write_engine.md
R202). -/
def State.pendingAnswered (s : State) (h : Nat) : State :=
  { s with pwtimer := s.pwtimer.stop, history := s.history ++ [⟨0x36#8, .host, some h, [], none⟩] }

section
variable {s : State} {h : Nat} (may : s.hostMay h = true) (phase : (s.port h).phase = .wrPendCheck)
include may phase

theorem exec_wrPendCheck_of_atPhase : exec (.wrPendCheck h) s = atomicStep s (s.wrPendCheck h) :=
  if_pos ((State.atPhase_iff s h _).mpr ⟨may, phase⟩)

theorem exec_wrPendCheck_quiet (quiet : s.periph.pen = false ∨ s.periph.treq = false) :
    exec (.wrPendCheck h) s = .next { s with
      ports := s.ports.modify h fun q => { q with phase := .wrDrain }
      history := s.history ++ [⟨0x36#8, .host, some h, [], none⟩] } := by
  have no_request : ¬ (s.periph.pen && s.periph.treq) = true := by
    rw [Bool.and_eq_true]
    rintro ⟨on, request⟩
    rcases quiet with off | quiet
    · cases on.symm.trans off
    · cases request.symm.trans quiet
  exact (exec_wrPendCheck_of_atPhase may phase).trans (congrArg (atomicStep s) (if_neg no_request))

variable (on : s.periph.pen = true) (request : s.periph.treq = true)
include on request

theorem exec_wrPendCheck_of_request :
    exec (.wrPendCheck h) s =
      atomicStep s (((s.pendingAnswered h).produce .host (some h)).andThen fun t => .ok (t.goto h .wrDrain)) :=
  (exec_wrPendCheck_of_atPhase may phase).trans
    (congrArg (atomicStep s) (if_pos (Bool.and_eq_true_iff.mpr ⟨on, request⟩)))

theorem exec_wrPendCheck_send {v : Byte} (left : s.wr.count ≠ 0#32) (adm : s.admitted s.wr.nextAddr = true)
    (byte : Memory.read s.hmem s.wr.nextAddr.toNat = some v) :
    exec (.wrPendCheck h) s = .next { s with
      pwtimer := s.pwtimer.stop
      periph := { s.periph with txwire := s.periph.txwire ++ [v], treq := false }
      wr := { s.wr with count := s.wr.count - 1#32 }
      wsem := s.wsem || decide (s.wr.count = 1#32)
      ports := s.ports.modify h fun q => { q with phase := .wrDrain }
      history := s.history ++ [⟨0x36#8, .host, some h, [], none⟩,
        ⟨0x82#8, .host, some h, [], some (.sentByte v)⟩] } := by
  rw [exec_wrPendCheck_of_request may phase on request,
    State.produce_send_of_request (s := s.pendingAnswered h) .host (some h) on request left adm byte,
    List.append_cons s.history]
  rfl

theorem exec_wrPendCheck_refused (left : s.wr.count ≠ 0#32) (refused : s.admitted s.wr.nextAddr = false) :
    exec (.wrPendCheck h) s = .next s := by
  rw [exec_wrPendCheck_of_request may phase on request,
    State.produce_refused (s := s.pendingAnswered h) .host (some h) left refused]
  rfl

theorem exec_wrPendCheck_noData (done : s.wr.count = 0#32) :
    exec (.wrPendCheck h) s = .next { s with
      pwtimer := s.pwtimer.arm s.cfg.pwTimeout
      wsem := true
      ports := s.ports.modify h fun q => { q with phase := .wrDrain }
      history := s.history ++ [⟨0x36#8, .host, some h, [], none⟩,
        ⟨0x82#8, .host, some h, [], some .noData⟩] } := by
  rw [exec_wrPendCheck_of_request may phase on request,
    State.produce_noData (s := s.pendingAnswered h) .host (some h) done, List.append_cons s.history]
  rfl

end

/-- Settles O21: WR_PEND_CHECK without a request, and with one by what is left. -/
theorem wrPendCheckServicesAPendingRequest : Obligations.WrPendCheckServicesAPendingRequest := fun _ _ may phase =>
  ⟨exec_wrPendCheck_quiet may phase,
    fun on request left => ⟨fun _ => exec_wrPendCheck_send may phase on request left,
      exec_wrPendCheck_refused may phase on request left⟩,
    exec_wrPendCheck_noData may phase⟩

/-! ### WR_DRAIN and WR_CHECK -/

/-- Settles O22: WR_DRAIN is one equation, whatever WSEM was. -/
theorem wrDrainTakesWsem : Obligations.WrDrainTakesWsem := fun s h may phase =>
  if_pos ((State.atPhase_iff s h _).mpr ⟨may, phase⟩)

theorem exec_wrCheck_of_atPhase {s : State} {h : Nat} (may : s.hostMay h = true)
    (phase : (s.port h).phase = .wrCheck) : exec (.wrCheck h) s = .next (s.wrCheck h) :=
  if_pos ((State.atPhase_iff s h _).mpr ⟨may, phase⟩)

/-- Settles O23: WR_CHECK by what is left and by the bound. -/
theorem wrCheckDecidesTheWait : Obligations.WrCheckDecidesTheWait := by
  intro s h may phase
  rw [exec_wrCheck_of_atPhase may phase]
  refine ⟨fun done => ?_, fun left poll => ?_, fun left bounded => ?_⟩ <;> congr 1
  · exact if_pos done
  · exact (if_neg left).trans (if_pos poll)
  · exact (if_neg left).trans (if_neg bounded)

/-! ### WR_WAIT and WR_EXIT -/

theorem Port.waitExpired_iff (p : Port) : p.waitExpired = true ↔ p.wwaitInf = false ∧ p.wwaitRem = 0#32 := by
  simp [Port.waitExpired]

section
variable {s : State} {h : Nat}

theorem exec_wrWaitWake_of_posted (may : s.hostMay h = true) (phase : (s.port h).phase = .wrWait)
    (posted : s.wsem = true) :
    exec (.wrWaitWake h) s = .next { s with
      wsem := false
      ports := s.ports.modify h fun q => { q with phase := .wrExit }
      history := s.history ++ [⟨0x39#8, .host, some h, [], none⟩] } :=
  if_pos (by rw [(State.atPhase_iff s h _).mpr ⟨may, phase⟩, posted]; rfl)

theorem exec_wrWaitWake_of_not_posted (quiet : s.wsem = false) : exec (.wrWaitWake h) s = .next s :=
  if_neg (by simp [quiet])

theorem exec_wrWaitTimeout_of_expired (may : s.hostMay h = true) (phase : (s.port h).phase = .wrWait)
    (expired : (s.port h).waitExpired = true) :
    exec (.wrWaitTimeout h) s = .next { s with
      ports := s.ports.modify h fun q => { q with phase := .wrExit }
      history := s.history ++ [⟨0x3A#8, .host, some h, [], none⟩] } :=
  if_pos (by rw [(State.atPhase_iff s h _).mpr ⟨may, phase⟩, expired]; rfl)

theorem exec_wrWaitTimeout_of_not_expired (running : ¬ (s.port h).waitExpired = true) :
    exec (.wrWaitTimeout h) s = .next s :=
  if_neg fun e => running (Bool.and_eq_true_iff.mp e).2

theorem exec_wrExit (may : s.hostMay h = true) (phase : (s.port h).phase = .wrExit) :
    exec (.wrExit h) s = .next { s with
      wr := { s.wr with count := 0#32 }
      ports := s.ports.modify h fun q =>
        { q with wwaitRem := 0#32, wwaitInf := false, result := s.wr.size - s.wr.count, phase := .idle, busy := false }
      history := s.history ++ [⟨0x3B#8, .host, some h, [], none⟩] } := by
  refine (if_pos ((State.atPhase_iff s h _).mpr ⟨may, phase⟩)).trans ?_
  simp [State.wrExit, State.finish, State.updPort, State.recordStep]

end

/-- Settles O24: the wake with WSEM set and clear, and the timeout with the bound run out and not. -/
theorem wrWaitEndsByWakeOrBound : Obligations.WrWaitEndsByWakeOrBound := by
  intro s h may phase
  refine ⟨exec_wrWaitWake_of_posted may phase, exec_wrWaitWake_of_not_posted, fun bounded out => ?_, fun waits => ?_⟩
  · exact exec_wrWaitTimeout_of_expired may phase ((Port.waitExpired_iff _).mpr ⟨bounded, out⟩)
  · refine exec_wrWaitTimeout_of_not_expired fun expired => ?_
    obtain ⟨bounded, out⟩ := (Port.waitExpired_iff _).mp expired
    rcases waits with unbounded | left
    · cases bounded.symm.trans unbounded
    · exact left out

/-- Settles O25: WR_EXIT's one equation, and the invariant's bound on WRITE_COUNT, by which the difference does not
wrap. -/
theorem wrExitReleasesTheLock : Obligations.WrExitReleasesTheLock := fun _ _ may phase =>
  ⟨exec_wrExit may phase, fun inv => BitVec.toNat_sub_of_le inv.write_le⟩

/-! ### The wake and the timeout of one wait -/

/-- A step that moves the port to WR_EXIT and keeps the WRITE, then WR_EXIT: the result is the count sent before them,
and of the port nothing else that the first step left shows. -/
theorem exec_then_wrExit {s t : State} {h : Nat} {i : Instr} (ended : exec i s = .next t) (hh : h < s.ports.length)
    (free : t.heldOff = false) (wr : t.wr = s.wr)
    (ports : t.ports = s.ports.modify h fun q => { q with phase := .wrExit }) :
    ∃ w u, exec i s = .next w ∧ exec (.wrExit h) w = .next u ∧ u.wr = { s.wr with count := 0#32 } ∧
      u.port h = { s.port h with
        wwaitRem := 0#32, wwaitInf := false, result := s.wr.size - s.wr.count, phase := .idle, busy := false } := by
  have there : h < t.ports.length := by simpa [ports] using hh
  have port : t.port h = { s.port h with phase := .wrExit } := by
    rw [State.port, ports]
    exact State.port_updPort_self hh _
  refine ⟨t, _, ended, exec_wrExit ((State.hostMay_iff t h).mpr ⟨there, free⟩) (by rw [port]), by rw [wr], ?_⟩
  refine (State.port_updPort_self there _).trans ?_
  rw [port, wr]

theorem State.heldOff_of_not_preemptStrict {s : State} (lax : s.launch.preemptStrict = false) : s.heldOff = false := by
  simp [State.heldOff, lax]

/-- Settles O58: either end of the wait leaves the WRITE and the port the same, and WR_EXIT reads nothing else. -/
theorem wakeOrTimeoutGivesOneResult : Obligations.WakeOrTimeoutGivesOneResult := by
  intro s h lax may phase posted bounded out
  have hh := ((State.hostMay_iff s h).mp may).1
  obtain ⟨t1, t2, woken, t_exit, t_wr, t_port⟩ := exec_then_wrExit (exec_wrWaitWake_of_posted may phase posted) hh
    (State.heldOff_of_not_preemptStrict lax) rfl rfl
  obtain ⟨u1, u2, timedOut, u_exit, u_wr, u_port⟩ := exec_then_wrExit
    (exec_wrWaitTimeout_of_expired may phase ((Port.waitExpired_iff _).mpr ⟨bounded, out⟩)) hh
    (State.heldOff_of_not_preemptStrict lax) rfl rfl
  exact ⟨t1, t2, u1, u2, woken, t_exit, timedOut, u_exit, t_port.trans u_port.symm, congrArg Port.result t_port,
    t_wr.trans u_wr.symm⟩

end Sys2Proof.Machine
end

section
/-! PROOF. The interrupt handler and the peripheral's events (44_interrupt_handler.md R240 to R247): when ISR_SERVICE is
enabled, what its receive half leaves, and the step as that half followed by PRODUCER_STEP. -/

namespace Sys2Proof.Machine

/-! ### The peripheral's events -/

theorem exec_rxArrive_of_not_ready {s : State} {b : Byte} (idle : s.periph.pen = false ∨ s.periph.rreq = true) :
    exec (.rxArrive b) s = .next s := by
  refine if_neg fun ready => ?_
  rcases idle with off | pending
  · simp [off] at ready
  · simp [pending] at ready

theorem exec_txRequest_of_ready {s : State} (on : s.periph.pen = true) (ready : s.periph.treq = false) :
    exec .txRequest s = .next { s with
      periph := { s.periph with treq := true, pris := s.periph.pris ||| 0x01#8 }
      history := s.history ++ [⟨0x71#8, .peripheral, none, [], none⟩] } :=
  if_pos (by rw [on, ready]; rfl)

theorem exec_txRequest_of_not_ready {s : State} (idle : s.periph.pen = false ∨ s.periph.treq = true) :
    exec .txRequest s = .next s := by
  refine if_neg fun ready => ?_
  rcases idle with off | pending
  · simp [off] at ready
  · simp [pending] at ready

/-- The cause bit that OTHER_CAUSE raises, as a power of two (44_interrupt_handler.md R244). -/
theorem causeBit_eq (k : Nat) : 0x01#8 <<< k = BitVec.ofNat 8 (2 ^ k) :=
  BitVec.eq_of_toNat_eq (by simp [Nat.shiftLeft_eq])

theorem exec_otherCause_of_on {s : State} {k : Nat} (on : s.periph.pen = true) (first : 1 ≤ k) (last : k ≤ 7) :
    exec (.otherCause k) s = .next { s with
      periph := { s.periph with pris := s.periph.pris ||| BitVec.ofNat 8 (2 ^ k) }
      history := s.history ++ [⟨0x72#8, .peripheral, none, [BitVec.ofNat 32 k], none⟩] } := by
  rw [← causeBit_eq]
  exact if_pos (by simp [on, first, last])

theorem exec_otherCause_of_off {s : State} {k : Nat} (off : s.periph.pen = false) :
    exec (.otherCause k) s = .next s :=
  if_neg (by simp [off])

/-- Settles O26: each event with its condition and without it. -/
theorem peripheralEventsRaiseTheirCauses : Obligations.PeripheralEventsRaiseTheirCauses := fun _ _ _ =>
  ⟨exec_rxArrive_of_ready, exec_rxArrive_of_not_ready, exec_txRequest_of_ready, exec_txRequest_of_not_ready,
    exec_otherCause_of_on, exec_otherCause_of_off⟩

/-! ### The receive half -/

/-- What ISR_SERVICE has come to before its transmit half: the snapshot, then the receive half if RREQ was set
(44_interrupt_handler.md R246). -/
inductive State.Received (s : State) : State → Prop where
  | quiet (none_pending : s.periph.rreq = false) : s.Received s.afterSnapshot
  | byte {b : Byte} (pending : s.periph.rreq = true) (value : s.periph.prxd = some b) :
      s.Received (s.afterSnapshot.afterRx b)

/-- The receive half completes, or PRXD holds no value to read (10_state.md R47). -/
theorem State.received_or_no_value (s : State) :
    (∃ u, s.Received u) ∨ s.periph.rreq = true ∧ s.periph.prxd = none := by
  cases rx : s.periph.rreq with
  | false => exact .inl ⟨_, .quiet rx⟩
  | true =>
    cases value : s.periph.prxd with
    | none => exact .inr ⟨rfl, rfl⟩
    | some b => exact .inl ⟨_, .byte rx value⟩

section
variable {s u : State} (received : s.Received u)
include received

theorem State.Received.call_eq : u.call = s.call := by cases received <;> rfl

theorem State.Received.pen_eq : u.periph.pen = s.periph.pen := by cases received <;> rfl

theorem State.Received.treq_eq : u.periph.treq = s.periph.treq := by cases received <;> rfl

theorem State.Received.producerAdmitted_eq : u.producerAdmitted = s.producerAdmitted := by cases received <;> rfl

theorem State.Received.nextUnwritten_iff : u.NextUnwritten ↔ s.NextUnwritten := by
  cases received <;> exact State.nextUnwritten_congr rfl rfl rfl

/-- The receive half neither reads nor writes TREQ. -/
theorem State.Received.set_treq (b : Bool) :
    State.Received { s with periph := { s.periph with treq := b } }
      { u with periph := { u.periph with treq := b } } := by
  cases received with
  | quiet none_pending => exact .quiet (s := { s with periph := { s.periph with treq := b } }) none_pending
  | byte pending value => exact .byte (s := { s with periph := { s.periph with treq := b } }) pending value

/-- The receive half takes the pending byte and writes the ring, DROPCNT and the reader's wake. -/
theorem State.Received.eq : ∃ pris ring dropcnt wakePending rsem history,
    u = { s with
      periph := { s.periph with pris := pris, rreq := false }
      ring := ring, dropcnt := dropcnt, rd := { s.rd with wakePending := wakePending }, rsem := rsem
      history := history } := by
  cases received with
  | quiet none_pending =>
    refine ⟨s.afterSnapshot.periph.pris, s.ring, s.dropcnt, s.rd.wakePending, s.rsem, s.afterSnapshot.history, ?_⟩
    rw [← none_pending]
    rfl
  | byte _ _ => exact ⟨_, _, _, _, _, _, rfl⟩

/-- ISR_SERVICE is the receive half, then PRODUCER_STEP if TREQ was set (44_interrupt_handler.md R246). -/
theorem State.Received.isrService_eq :
    s.isrService = if s.periph.treq = true then u.produce .isr none else .ok u := by
  rw [State.isrService_eq]
  cases received with
  | quiet none_pending =>
    rw [none_pending]
    rfl
  | byte pending value =>
    rw [if_pos pending, show s.afterSnapshot.serviceRx = _ from State.serviceRx_eq value]
    rfl

theorem State.Received.exec_without_request (on : s.isrEnabled = true) (no_request : s.periph.treq = false) :
    exec .isrService s = .next u := by
  refine (if_pos on).trans ?_
  rw [received.isrService_eq, no_request]
  rfl

theorem State.Received.exec_with_request (on : s.isrEnabled = true) (request : s.periph.treq = true) :
    exec .isrService s = atomicStep s (u.produce .isr none) := by
  refine (if_pos on).trans ?_
  rw [received.isrService_eq, if_pos request]

end

/-! ### When ISR_SERVICE is enabled -/

/-- The line requests it, and its host-memory read, if it makes one, is admitted (44_interrupt_handler.md R245,
20_memory.md R71). -/
theorem State.isrEnabled_iff (s : State) :
    s.isrEnabled = true ↔ s.ien = true ∧ s.periph.pris &&& s.periph.pim ≠ 0#8 ∧
      (s.periph.treq = true → s.wr.count ≠ 0#32 → s.admitted s.wr.nextAddr = true) := by
  simp only [State.isrEnabled, State.irq, State.producerAdmitted, Bool.and_eq_true, Bool.or_eq_true,
    Bool.not_eq_true', decide_eq_true_eq, ← Bool.not_eq_true, and_assoc, or_iff_not_imp_left, not_not]
  rfl

/-- An enabled ISR_SERVICE makes an admitted read or none. -/
theorem State.producerAdmitted_of_isrEnabled {s : State} (on : s.isrEnabled = true) (request : s.periph.treq = true) :
    s.producerAdmitted = true := by
  simpa [request] using (Bool.and_eq_true_iff.mp on).2

theorem exec_isrService_of_not_enabled {s : State} (off : ¬ s.isrEnabled = true) : exec .isrService s = .next s :=
  if_neg off

/-- Settles O27: without a request the step is its receive half. -/
theorem isrServicesReceive : Obligations.IsrServicesReceive := by
  intro s b ien line pending value no_request
  have on : s.isrEnabled = true := s.isrEnabled_iff.mpr ⟨ien, line, by simp [no_request]⟩
  rw [(State.Received.byte pending value).exec_without_request on no_request, List.append_cons s.history]
  rfl

/-! ### The transmit half -/

/-- The state an atomic step starts from shows in its outcome only when the step is stuck. -/
theorem atomicStep_congr {s w : State} {x : Attempt State} (moves : x ≠ .stuck) : atomicStep s x = atomicStep w x := by
  cases x with
  | ok t => rfl
  | stuck => exact absurd rfl moves
  | unwritten => rfl

/-- With a request pending, ISR_SERVICE is the row PRODUCER_STEP at its call in what the receive half left. -/
theorem State.Received.exec_eq_producerStep {s u : State} (received : s.Received u) (on : s.isrEnabled = true)
    (request : s.periph.treq = true) (pen : s.periph.pen = true) (no_call : s.call = none) :
    exec .isrService s = exec .producerStep { u with call := some (.producer none) } := by
  have moves : u.produce .isr none ≠ .stuck :=
    State.produce_ne_stuck (received.producerAdmitted_eq.trans (State.producerAdmitted_of_isrEnabled on request)) _ _
  have returned : State.endCall { u with call := some (.producer none) } = u := by
    rw [State.endCall, ← received.call_eq.trans no_call]
  rw [received.exec_with_request on request,
    exec_producerStep_of_called (s := { u with call := some (.producer none) }) rfl (received.pen_eq.trans pen)
      (received.treq_eq.trans request), returned]
  exact atomicStep_congr moves

/-- Settles O28: not enabled, enabled with neither condition, and both halves. The step without the request is the
receive half, which does not read TREQ. -/
theorem isrServicesBothConditions : Obligations.IsrServicesBothConditions := by
  intro s
  refine ⟨fun idle => ?_, fun ien line none_pending no_request => ?_, fun request left refused => ?_,
    fun ien line request adm pen no_call t e => ?_⟩
  · refine exec_isrService_of_not_enabled fun on => ?_
    obtain ⟨ien, line, _⟩ := s.isrEnabled_iff.mp on
    rcases idle with off | no_cause
    · cases ien.symm.trans off
    · exact line no_cause
  · exact (State.Received.quiet none_pending).exec_without_request
      (s.isrEnabled_iff.mpr ⟨ien, line, by simp [no_request]⟩) no_request
  · refine exec_isrService_of_not_enabled fun on => ?_
    obtain ⟨_, _, adm⟩ := s.isrEnabled_iff.mp on
    cases (adm request left).symm.trans refused
  · have on : s.isrEnabled = true := s.isrEnabled_iff.mpr ⟨ien, line, fun _ => adm⟩
    have on_without : State.isrEnabled { s with periph := { s.periph with treq := false } } = true :=
      (State.isrEnabled_iff _).mpr ⟨ien, line, nofun⟩
    rcases s.received_or_no_value with ⟨u, received⟩ | no_value
    · have half := (received.set_treq false).exec_without_request on_without rfl
      obtain rfl := Host.Outcome.next.inj (half.symm.trans e)
      rw [received.exec_eq_producerStep on request pen no_call, ← received.treq_eq.trans request]
    · have stops := execIsrService_eq_fault_iff.mpr ⟨rfl, on_without, .inl no_value⟩
      cases stops.symm.trans e

/-! ### ISR_SERVICE completes -/

/-- PRODUCER_STEP completes unless its byte is not admitted or was never written (43_write_engine.md R210). -/
theorem State.exists_produce_eq_ok {s : State} (adm : s.producerAdmitted = true) (written : ¬ s.NextUnwritten)
    (agent : Agent) (port : Option Nat) : ∃ t, s.produce agent port = .ok t := by
  cases e : s.produce agent port with
  | ok t => exact ⟨t, rfl⟩
  | stuck => exact absurd e (State.produce_ne_stuck adm agent port)
  | unwritten => exact absurd ((State.produce_eq_unwritten_iff s agent port).mp e) written

/-- PRODUCER_STEP writes TXWIRE, the request, WRITE_COUNT, WSEM and PWTIMER alone (43_write_engine.md R210). -/
theorem State.eq_of_produce {s t : State} {agent : Agent} {port : Option Nat} (e : s.produce agent port = .ok t) :
    ∃ treq txwire count wsem pwtimer history, t = { s with
      periph := { s.periph with treq := treq, txwire := txwire }
      wr := { s.wr with count := count }, wsem := wsem, pwtimer := pwtimer, history := history } := by
  rcases State.produce_eq_ok e with ⟨_, rfl⟩ | ⟨v, _, _, _, rfl⟩
  · exact ⟨_, _, _, _, _, _, rfl⟩
  · rw [Periph.writeData_eq]
    split_ifs <;> exact ⟨_, _, _, _, _, _, rfl⟩

theorem State.MemoryWritten.not_nextUnwritten {s : State} (written : s.MemoryWritten) : ¬ s.NextUnwritten := by
  rintro ⟨_, adm, no_value⟩
  simpa [no_value] using written _ adm

/-- The receive half completes in a state of the invariant: a pending byte holds a value (10_state.md R47). -/
theorem State.Inv.exists_received {s : State} (inv : s.Inv) : ∃ u, s.Received u := by
  rcases s.received_or_no_value with received | ⟨pending, no_value⟩
  · exact received
  · simpa [no_value] using inv.line.rreq_value pending

/-- Settles O29: both halves complete, and each writes its own fields alone. -/
theorem isrNeverBlocksAndLeavesTheRest : Obligations.IsrNeverBlocksAndLeavesTheRest := by
  intro s inv written on
  obtain ⟨u, received⟩ := inv.exists_received
  cases tx : s.periph.treq with
  | false =>
    refine ⟨u, received.exec_without_request on tx, ?_⟩
    obtain ⟨pris, ring, dropcnt, wakePending, rsem, history, rfl⟩ := received.eq
    exact ⟨rfl, rfl⟩
  | true =>
    obtain ⟨t, sent⟩ := State.exists_produce_eq_ok
      (received.producerAdmitted_eq.trans (State.producerAdmitted_of_isrEnabled on tx))
      (mt received.nextUnwritten_iff.mp written.not_nextUnwritten) .isr none
    refine ⟨t, by rw [received.exec_with_request on tx, sent, atomicStep_ok], ?_⟩
    obtain ⟨pris, ring, dropcnt, wakePending, rsem, history, rfl⟩ := received.eq
    obtain ⟨treq, txwire, count, wsem, pwtimer, history, rfl⟩ := State.eq_of_produce sent
    exact ⟨rfl, rfl⟩

end Sys2Proof.Machine
end

section
/-! PROOF. The lifecycle and the issue of commands (45_lifecycle.md R271 to R276, R289 to R293): illegal words,
OPEN, OP_BUILD and CLOSE as equations, and the issue rows as the commands' bodies. -/

namespace Sys2Proof.Machine

/-! ### The issue of a command -/

theorem exec_openCmd_of_free {s : State} {h : Nat} (may : s.hostMay h = true) (free : (s.port h).busy = false)
    (a : BitVec 7) : exec (.openCmd h a) s = .next ((s.latched h (Command.openC a).word).openIssue h) :=
  exec_toInstr_of_free may free (decodeCommand_open a _)

theorem exec_closeCmd_of_free {s : State} {h : Nat} (may : s.hostMay h = true) (free : (s.port h).busy = false) :
    exec (.closeCmd h) s = .next ((s.latched h 0x20000000#32).closeIssue h) :=
  exec_toInstr_of_free may free (decodeCommand_close _)

/-- A command word is illegal for READ and WRITE from a size of 2^31 on (30_encoding.md R97). -/
theorem decodeCommand_transfer_of_ge {n : Word} (big : 2 ^ 31 ≤ n.toNat) :
    decodeCommand Command.readC.word n = .error .sizeRange ∧
      decodeCommand Command.writeC.word n = .error .sizeRange := by
  have bit : n.getLsbD 31 = true := (getLsbD_31_iff n).mpr big
  exact ⟨(decodeCommand_read n).trans (if_pos bit), (decodeCommand_write n).trans (if_pos bit)⟩

/-- The row ILLEGAL_COMMAND is the host's write of its word (45_lifecycle.md R291). -/
theorem exec_illegalCommand_of_error {s : State} {h : Nat} {w : Word} {e : DecodeError}
    (illegal : decodeCommand w (s.port h).arg1 = .error e) :
    exec (.illegalCommand h w) s = .next (s.hostCmd h w) := by
  simp [exec, execIllegalCommand, illegal]

/-- The host's write of an illegal word on a free port (45_lifecycle.md R291). -/
theorem State.hostCmd_of_error {s : State} {h : Nat} {w : Word} {e : DecodeError} (may : s.hostMay h = true)
    (free : (s.port h).busy = false) (illegal : decodeCommand w (s.port h).arg1 = .error e) :
    s.hostCmd h w = s.illegalIssue h w := by
  rcases State.hostCmd_cases s h w with ⟨held, _⟩ | ⟨_, busy, _⟩ | ⟨_, _, _, g⟩ | ⟨_, _, k, legal, _⟩
  · cases may.symm.trans held
  · cases free.symm.trans busy
  · exact g
  · cases illegal.symm.trans legal

/-- Settles O11: an illegal word's row is the host's write of it, and a READ or WRITE of 2^31 bytes or more is one. -/
theorem illegalWordCompletesAtIssue : Obligations.IllegalWordCompletesAtIssue := by
  intro s h w may free
  refine ⟨fun ⟨e, illegal⟩ => ?_, fun big => ?_⟩
  · exact (exec_illegalCommand_of_error illegal).trans (congrArg _ (State.hostCmd_of_error may free illegal))
  · obtain ⟨read, write⟩ := decodeCommand_transfer_of_ge big
    exact ⟨(exec_illegalCommand_of_error read).symm, (exec_illegalCommand_of_error write).symm, _, read⟩

/-! ### OPEN and OP_BUILD -/

/-- Settles O6: OPEN is its body on the latched port, where the test of OPENED comes first. -/
theorem openCommandTestsAndSets : Obligations.OpenCommandTestsAndSets := by
  intro s h a may free
  have port := State.latched_port_self ((State.hostMay_iff s h).mp may).1 (Command.openC a).word
  have saddr : ((s.latched h (Command.openC a).word).port h).saddr = a := by rw [port, Port.saddr, openWord_saddr]
  rw [exec_openCmd_of_free may free, ← openWord_eq]
  rcases State.openIssue_cases (s.latched h (Command.openC a).word) h with ⟨opened, e⟩ | ⟨fresh, e⟩ <;>
    rw [e, saddr] <;> simp only [port, State.latched_ports, modify_modify]
  · exact ⟨fun _ => rfl, fun fresh => by cases fresh.symm.trans opened⟩
  · exact ⟨fun opened => (by cases opened.symm.trans fresh), fun _ => rfl⟩

theorem exec_opBuild_of_atPhase {s : State} {h : Nat} (may : s.hostMay h = true) (phase : (s.port h).phase = .opBuild) :
    exec (.opBuild h) s = .next (s.opBuild h) :=
  if_pos ((State.atPhase_iff s h _).mpr ⟨may, phase⟩)

/-- Settles O7: at its phase the row is the whole construction. -/
theorem opBuildConstructsTheInstance : Obligations.OpBuildConstructsTheInstance := fun _ _ =>
  exec_opBuild_of_atPhase

/-- Port `h` of a state whose ports are one update of it. -/
theorem State.port_of_ports_eq {s t : State} {h : Nat} {f : Port → Port} (there : h < s.ports.length)
    (ports : t.ports = s.ports.modify h f) : t.port h = f (s.port h) := by
  rw [State.port, ports]
  exact State.port_updPort_self there f

theorem State.opBuild_port {s : State} {h : Nat} (there : h < s.ports.length) :
    (s.opBuild h).port h = { s.port h with result := 1#32, phase := .idle, busy := false } :=
  State.port_of_ports_eq (f := fun q => { q with result := 1#32, phase := .idle, busy := false }) there rfl

/-- The build clears the causes, so the line is quiet (44_interrupt_handler.md R245). -/
theorem State.opBuild_irq (s : State) (h : Nat) : (s.opBuild h).irq = false := by
  have quiet : (s.opBuild h).periph.pmis = 0#8 := show 0x00#8 &&& 0x01#8 = 0#8 by decide
  simp [State.irq, quiet]

/-- Settles O59: OP_BUILD writes each named field from the port's operands alone. -/
theorem openForgetsTheEarlierInstance : Obligations.OpenForgetsTheEarlierInstance := by
  intro s1 s2 t1 t2 h may1 may2 phase1 phase2 arg0 arg1 arg2 lcmd e1 e2
  obtain rfl := Host.Outcome.next.inj (e1.symm.trans (exec_opBuild_of_atPhase may1 phase1))
  obtain rfl := Host.Outcome.next.inj (e2.symm.trans (exec_opBuild_of_atPhase may2 phase2))
  have port1 := State.opBuild_port ((State.hostMay_iff s1 h).mp may1).1
  have port2 := State.opBuild_port ((State.hostMay_iff s2 h).mp may2).1
  have saddr : (s1.port h).saddr = (s2.port h).saddr := congrArg (BitVec.extractLsb' 0 7) lcmd
  have cfg : (s1.opBuild h).cfg = (s2.opBuild h).cfg := by simp [State.opBuild, arg0, arg1, arg2, saddr]
  have periph : (s1.opBuild h).periph = { (s2.opBuild h).periph with
      prxd := s1.periph.prxd, txwire := s1.periph.txwire, rxwire := s1.periph.rxwire } := by
    simp [State.opBuild, saddr]
  refine ⟨rfl, cfg, rfl, rfl, rfl, rfl, rfl, rfl, rfl, rfl, rfl, rfl, rfl, periph, s1.opBuild_irq h, s2.opBuild_irq h,
    ?_, ?_, ?_, ?_⟩
  · simp only [port1, port2, arg0, arg1, arg2, lcmd]
  · rw [port1]
  · rw [port1]
  · rw [port1]

/-! ### CLOSE -/

/-- The transfers that CLOSE_IN_FLIGHT reports (45_lifecycle.md R274). -/
theorem State.inFlight_iff (s : State) :
    s.inFlight = true ↔ s.rd.active = true ∨
      ∃ p ∈ s.ports, p.phase ∈ [.wrPendCheck, .wrDrain, .wrCheck, .wrWait, .wrExit] := by
  have writes : ∀ p : Phase, p.inWrite = true ↔ p ∈ [.wrPendCheck, .wrDrain, .wrCheck, .wrWait, .wrExit] := fun p => by
    cases p <;> decide
  simp only [State.inFlight, Bool.or_eq_true, List.any_eq_true, writes]

/-- Whether some port passes a test that the update of one port does not show. -/
theorem any_modify {ps : List Port} {h : Nat} {f : Port → Port} {test : Port → Bool}
    (keeps : ∀ p, test (f p) = test p) : (ps.modify h f).any test = ps.any test := by
  induction ps generalizing h with
  | nil => simp
  | cons p ps ih => cases h <;> simp [keeps, ih]

/-- The latch moves no port's phase (45_lifecycle.md R289). -/
theorem State.latched_inFlight (s : State) (h : Nat) (w : Word) : (s.latched h w).inFlight = s.inFlight :=
  congrArg (s.rd.active || ·) (any_modify fun _ => rfl)

/-- Settles O8: CLOSE is its body on the latched port, which tears an Open block down. -/
theorem closeCommandTearsDown : Obligations.CloseCommandTearsDown := by
  intro s h may free _
  rw [exec_closeCmd_of_free may free]
  rcases State.closeIssue_cases (s.latched h 0x20000000#32) h with ⟨shut, e⟩ | ⟨is_open, e⟩ <;>
    rw [e] <;> simp only [State.latched_inFlight, State.inFlight_iff, State.latched_ports, modify_modify]
  · exact ⟨fun _ => rfl, fun is_open => absurd is_open shut⟩
  · exact ⟨fun shut => absurd is_open shut, fun _ => rfl⟩

/-! ### The issue rows -/

/-- The row of a command's own body (30_encoding.md R99). -/
def issueRow (h : Nat) : Command → Instr
  | .openC _ => .openIssue h
  | .closeC => .closeIssue h
  | .readC => .readIssue h
  | .writeC => .writeIssue h

/-- A port that just latched a word stands inside the issue of the command it decodes to (45_lifecycle.md R289). -/
theorem State.latched_issuing {s : State} {h : Nat} {w : Word} {k : Command} {want : Command → Bool}
    (there : h < s.ports.length) (idle : (s.port h).phase = .idle) (decodes : decodeCommand w (s.port h).arg1 = .ok k)
    (wanted : want k = true) : (s.latched h w).issuing h want = true := by
  simp [State.issuing, State.hasPort, State.latched_port_self there, there, idle, decodes, wanted]

theorem exec_issueRow_of_latched {s : State} {h : Nat} {w : Word} {k : Command} (there : h < s.ports.length)
    (idle : (s.port h).phase = .idle) (decodes : decodeCommand w (s.port h).arg1 = .ok k) :
    exec (issueRow h k) (s.latched h w) = .next ((s.latched h w).issueBody h k) := by
  cases k <;> exact if_pos (State.latched_issuing there idle decodes rfl)

/-- A command's step is its word's latch, then its issue row (45_lifecycle.md R289). -/
theorem exec_toInstr_eq_issueRow {s : State} {h : Nat} {k : Command} (may : s.hostMay h = true)
    (free : (s.port h).busy = false) (idle : (s.port h).phase = .idle)
    (decodes : decodeCommand k.word (s.port h).arg1 = .ok k) :
    exec (k.toInstr h) s = .next ((s.latched h k.word).issueBody h k) ∧
      exec (issueRow h k) (s.latched h k.word) = .next ((s.latched h k.word).issueBody h k) :=
  ⟨exec_toInstr_of_free may free decodes,
    exec_issueRow_of_latched ((State.hostMay_iff s h).mp may).1 idle decodes⟩

theorem decodeCommand_read_of_lt {n : Word} (legal : n.toNat < 2 ^ 31) :
    decodeCommand Command.readC.word n = .ok .readC := by
  rw [decodeCommand_read, if_neg fun big => legal.not_ge ((getLsbD_31_iff _).mp big)]

/-- Settles O13: the four commands by the word each latches. -/
theorem commandStepIsLatchThenIssueRow : Obligations.CommandStepIsLatchThenIssueRow := by
  intro s h a may free idle legal
  have issues (k : Command) := exec_toInstr_eq_issueRow (k := k) may free idle
  rw [← openWord_eq]
  exact ⟨_, _, _, _, issues (.openC a) (decodeCommand_open a _), issues .closeC (decodeCommand_close _),
    issues .readC (decodeCommand_read_of_lt legal), issues .writeC (decodeCommand_write_of_lt legal)⟩

/-- Settles O14: each row is its body, whose checks come in R293's order. -/
theorem issueRowsCompleteInsideAnIssue : Obligations.IssueRowsCompleteInsideAnIssue := by
  intro s h
  refine ⟨fun at_issue => ⟨s.openIssue h, if_pos at_issue, ?_⟩, fun at_issue => ⟨s.closeIssue h, if_pos at_issue, ?_⟩,
    fun at_issue => ⟨s.readIssue h, if_pos at_issue, ?_⟩, fun at_issue => ⟨s.writeIssue h, if_pos at_issue, ?_⟩⟩ <;>
    obtain ⟨there, _⟩ := State.issuing_port at_issue
  · rcases s.openIssue_cases h with ⟨opened, e⟩ | ⟨fresh, e⟩ <;>
      rw [State.port_of_ports_eq there (congrArg State.ports e), e]
    · simp [opened]
    · simp [fresh]
  · rcases s.closeIssue_cases h with ⟨shut, e⟩ | ⟨is_open, e⟩ <;>
      rw [State.port_of_ports_eq there (congrArg State.ports e), e]
    · simp [shut]
    · simp [is_open]
  · rcases s.readIssue_cases h with ⟨shut, e⟩ | ⟨is_open, zero, e⟩ | ⟨is_open, size, e⟩ <;>
      rw [State.port_of_ports_eq there (congrArg State.ports e), e]
    · simp [shut]
    · simp [is_open, zero]
    · simp [is_open, size]
  · rcases s.writeIssue_cases h with
      ⟨_, e, ⟨shut, rfl⟩ | ⟨is_open, zero, rfl⟩ | ⟨is_open, size, busy, rfl⟩⟩ | ⟨is_open, size, quiet, e⟩ <;>
      rw [State.port_of_ports_eq there (congrArg State.ports e), e]
    · simp [shut]
    · simp [is_open, zero]
    · simp [is_open, size, busy]
    · simp [is_open, size, quiet]

end Sys2Proof.Machine
end

section
/-! PROOF. The moves of LSTATE (45_lifecycle.md R270): OPEN's body, OP_BUILD and CLOSE's body make one each, and the
other rows make none. -/

namespace Sys2Proof.Machine

/-! ### The operations on the lifecycle -/

theorem State.readIssue_life (s : State) (h : Nat) : (s.readIssue h).life = s.life := by
  rcases State.readIssue_cases s h with ⟨_, e⟩ | ⟨_, _, e⟩ | ⟨_, _, e⟩ <;> rw [e]

theorem State.writeIssue_life (s : State) (h : Nat) : (s.writeIssue h).life = s.life := by
  rcases State.writeIssue_cases s h with ⟨_, e, _⟩ | ⟨_, _, _, e⟩ <;> rw [e]

/-- OPENED says whether the block is Closed, so OPEN's test-and-set moves from Closed alone (45_lifecycle.md
R271). -/
theorem State.openIssue_moves {s : State} (agree : s.life.opened = true ↔ s.life.lstate ≠ .closed) {h : Nat}
    (moved : (s.openIssue h).life.lstate ≠ s.life.lstate) :
    s.life.lstate = .closed ∧ (s.openIssue h).life.lstate = .opening := by
  rcases State.openIssue_cases s h with ⟨_, e⟩ | ⟨fresh, e⟩
  · exact absurd (congrArg (·.life.lstate) e) moved
  · exact ⟨not_not.mp (mt agree.mpr (by simp [fresh])), congrArg (·.life.lstate) e⟩

/-- CLOSE moves from Open alone (45_lifecycle.md R274). -/
theorem State.closeIssue_moves {s : State} {h : Nat} (moved : (s.closeIssue h).life.lstate ≠ s.life.lstate) :
    s.life.lstate = .opened ∧ (s.closeIssue h).life.lstate = .closed := by
  rcases State.closeIssue_cases s h with ⟨_, e⟩ | ⟨is_open, e⟩
  · exact absurd (congrArg (·.life.lstate) e) moved
  · exact ⟨is_open, congrArg (·.life.lstate) e⟩

/-- PRODUCER_STEP does not touch the lifecycle (43_write_engine.md R210). -/
theorem State.life_of_produce {s t : State} {agent : Agent} {port : Option Nat} (e : s.produce agent port = .ok t) :
    t.life = s.life := by
  obtain ⟨_, _, _, _, _, _, rfl⟩ := State.eq_of_produce e
  rfl

theorem execIsrService_life {s t : State} (e : execIsrService s = .next t) : t.life = s.life := by
  rcases execIsrService_cases e with rfl | ⟨_, u, received, produced⟩
  · rfl
  have half : u.life = s.life := by rcases received with ⟨_, rfl⟩ | ⟨_, _, _, rfl⟩ <;> rfl
  rcases produced with ⟨_, rfl⟩ | ⟨_, e⟩
  · exact half
  · exact (State.life_of_produce e).trans half

/-! ### The rows -/

/-- The rows of OPEN, its build and CLOSE (45_lifecycle.md R270). -/
def movesLife : Instr → Bool
  | .openCmd .. | .openIssue _ | .opBuild _ | .closeCmd _ | .closeIssue _ => true
  | _ => false

/-- Every other row keeps OPENED and LSTATE. -/
theorem exec_life_of_not_movesLife {i : Instr} {s t : State} (other : movesLife i = false) (e : exec i s = .next t) :
    t.life = s.life := by
  cases i with
  | openCmd | openIssue | opBuild | closeCmd | closeIssue => cases other
  | readCmd h =>
    rcases execReadCmd_cases e with rfl | ⟨_, _, rfl⟩ | ⟨_, _, _, rfl⟩ | ⟨_, _, _, rfl⟩
    · rfl
    · rfl
    · rfl
    · exact State.readIssue_life _ h
  | writeCmd h =>
    rcases execWriteCmd_cases e with rfl | ⟨_, _, rfl⟩ | ⟨_, _, _, rfl⟩ | ⟨_, _, _, rfl⟩
    · rfl
    · rfl
    · rfl
    · exact State.writeIssue_life _ h
  | readIssue h => exact field_of_ite State.life e (s.readIssue_life h)
  | writeIssue h => exact field_of_ite State.life e (s.writeIssue_life h)
  | illegalCommand h w => rcases execIllegalCommand_cases e with rfl | ⟨_, _, rfl⟩ | ⟨_, _, _, rfl⟩ <;> rfl
  | rdLoop h =>
    rcases execRdLoop_cases e with rfl | ⟨_, _, ⟨_, rfl⟩ | ⟨_, _, rfl⟩ | ⟨_, _, _, _, _, rfl⟩⟩ <;> rfl
  | rdWoken h => rcases execRdWoken_cases e with rfl | ⟨_, _, rfl⟩ <;> rfl
  | wrPendCheck h =>
    rcases execWrPendCheck_cases e with rfl | ⟨_, _, ⟨_, rfl⟩ | ⟨_, _, _, rfl⟩ | ⟨_, _, _, _, _, _, rfl⟩⟩ <;> rfl
  | wrCheck h => rcases execWrCheck_cases e with rfl | ⟨_, _, ⟨_, rfl⟩ | ⟨_, _, rfl⟩ | ⟨_, _, rfl⟩⟩ <;> rfl
  | isrService => exact execIsrService_life e
  | tick => rcases execTick_cases e with rfl | ⟨_, rfl⟩ <;> rfl
  | put b => rcases execPut_cases e with rfl | ⟨_, ⟨_, rfl⟩ | ⟨_, rfl⟩⟩ <;> rfl
  | get => rcases execGet_cases e with rfl | ⟨_, _, ⟨_, rfl⟩ | ⟨_, _, _, rfl⟩⟩ <;> rfl
  | producerStep =>
    rcases execProducerStep_cases e with rfl | ⟨_, _, _, _, e⟩
    · rfl
    · exact (State.life_of_produce e).trans s.endCall_life
  | _ => exact field_of_ite State.life e rfl

/-- Settles O44: OPEN's body moves from Closed, OP_BUILD from Opening, CLOSE's body from Open, and every other row keeps
LSTATE. -/
theorem lifecycleMovesOnlyForward : Obligations.LifecycleMovesOnlyForward := by
  intro i s t inv e moved
  cases i with
  | openCmd h a =>
    rcases execOpenCmd_cases e with rfl | ⟨_, _, rfl⟩ | ⟨_, _, rfl⟩
    · exact absurd rfl moved
    · exact absurd rfl moved
    · obtain ⟨before, after⟩ := State.openIssue_moves (s := s.latched h _) inv.life.opened_iff moved
      exact .inl ⟨before, after, h, .inr ⟨a, rfl⟩⟩
  | openIssue h =>
    rcases execOpenIssue_cases e with rfl | ⟨_, rfl⟩
    · exact absurd rfl moved
    · obtain ⟨before, after⟩ := State.openIssue_moves inv.life.opened_iff moved
      exact .inl ⟨before, after, h, .inl rfl⟩
  | opBuild h =>
    rcases execOpBuild_cases e with rfl | ⟨_, building, rfl⟩
    · exact absurd rfl moved
    · exact .inr (.inl ⟨inv.life.build_opening h building, rfl, h, rfl⟩)
  | closeCmd h =>
    rcases execCloseCmd_cases e with rfl | ⟨_, _, rfl⟩ | ⟨_, _, rfl⟩
    · exact absurd rfl moved
    · exact absurd rfl moved
    · obtain ⟨before, after⟩ := State.closeIssue_moves (s := s.latched h _) moved
      exact .inr (.inr ⟨before, after, h, .inr rfl⟩)
  | closeIssue h =>
    rcases execCloseIssue_cases e with rfl | ⟨_, rfl⟩
    · exact absurd rfl moved
    · obtain ⟨before, after⟩ := State.closeIssue_moves moved
      exact .inr (.inr ⟨before, after, h, .inl rfl⟩)
  | _ => exact absurd (congrArg Lifecycle.lstate (exec_life_of_not_movesLife rfl e)) moved

end Sys2Proof.Machine
end

section
/-! PROOF. The two timer callbacks due together (60_exceptions.md R308; 41_timeout_timer.md R145, R146). -/

namespace Sys2Proof.Machine

/-- Settles O57: RT_EXPIRE writes RTIMER, READ's flag and RSEM, PW_EXPIRE the data register and PWTIMER, and neither
reads what the other writes. -/
theorem timerCallbacksCommute : Obligations.TimerCallbacksCommute := by
  intro s lax rt_due pw_due
  have free {t : State} (same : t.launch = s.launch) : t.heldOff = false :=
    State.heldOff_of_not_preemptStrict (by rw [same, lax])
  exact ⟨_, _, _, _, exec_rtExpire_of_expired (free rfl) rt_due, exec_pwExpire_of_expired (free rfl) pw_due,
    exec_pwExpire_of_expired (free rfl) pw_due, exec_rtExpire_of_expired (free rfl) rt_due, rfl, rfl, rfl⟩

end Sys2Proof.Machine
end

section
/-! PROOF. Who writes a port's registers (60_exceptions.md R303, R314, R319): a host step those of its own port, TICK
the wait counts, and no other step any. -/

namespace Sys2Proof.Machine

/-- The port whose host takes the row as its step (60_exceptions.md R300); the other agents' steps and the
sub-operations have none. -/
def hostOf : Instr → Option Nat
  | .openCmd h _ | .closeCmd h | .readCmd h | .writeCmd h | .illegalCommand h _ | .openIssue h | .closeIssue h
  | .readIssue h | .writeIssue h | .opBuild h | .rdLoop h | .rdWaitWake h | .rdWoken h | .rdExit h | .wrPendCheck h
  | .wrDrain h | .wrCheck h | .wrWaitWake h | .wrWaitTimeout h | .wrExit h => some h
  | .isrService | .rtExpire | .pwExpire | .tick | .rxArrive _ | .txRequest | .otherCause _ | .put _ | .get
  | .producerStep => none

/-! ### Host steps -/

/-- No port but `h` has changed. -/
def State.OnlyPort (s : State) (h : Nat) (t : State) : Prop := ∃ f : Port → Port, t.ports = s.ports.modify h f

theorem State.OnlyPort.of_same {s t : State} {h : Nat} (same : t.ports = s.ports) : s.OnlyPort h t :=
  ⟨id, by rw [same, List.modify_id]⟩

theorem State.OnlyPort.trans {s t u : State} {h : Nat} (first : s.OnlyPort h t) (second : t.OnlyPort h u) :
    s.OnlyPort h u := by
  obtain ⟨f, ports⟩ := first
  obtain ⟨g, ports'⟩ := second
  exact ⟨_, by rw [ports', ports, modify_modify]⟩

theorem State.OnlyPort.port_ne {s t : State} {h j : Nat} (only : s.OnlyPort h t) (ne : j ≠ h) :
    t.port j = s.port j := by
  obtain ⟨f, ports⟩ := only
  rw [State.port, ports]
  exact State.port_updPort_ne ne f

/-- A meaning that goes to one state, or is skipped. -/
theorem State.OnlyPort.of_ite {c : Prop} [Decidable c] {s u t : State} {h : Nat}
    (e : (if c then .next u else .next s : Host.Outcome State Fault Refusal) = .next t) (only : s.OnlyPort h u) :
    s.OnlyPort h t := by
  split_ifs at e <;> obtain rfl := Host.Outcome.next.inj e
  · exact only
  · exact .of_same rfl

theorem State.issueBody_onlyPort (s : State) (h : Nat) (k : Command) : s.OnlyPort h (s.issueBody h k) :=
  let ⟨f, ports, _⟩ := s.issueBody_ports h k
  ⟨f, ports⟩

/-- A host's write of a command word: an overrun, an illegal word, or the latch and the command's body, all on the
host's own port (45_lifecycle.md R289, R291). -/
theorem State.hostCmd_onlyPort (s : State) (h : Nat) (w : Word) : s.OnlyPort h (s.hostCmd h w) := by
  rcases State.hostCmd_cases s h w with ⟨_, e⟩ | ⟨_, _, e⟩ | ⟨_, _, _, e⟩ | ⟨_, _, k, _, e⟩ <;> rw [e]
  · exact .of_same rfl
  · exact ⟨_, rfl⟩
  · exact ⟨_, rfl⟩
  · exact .trans ⟨_, s.latched_ports h w⟩ (State.issueBody_onlyPort _ h k)

/-- A host step writes the registers of its own port alone (60_exceptions.md R314, R319). -/
theorem exec_onlyPort {i : Instr} {s t : State} {h : Nat} (host : hostOf i = some h) (e : exec i s = .next t) :
    s.OnlyPort h t := by
  cases i with
  | isrService | rtExpire | pwExpire | tick | rxArrive | txRequest | otherCause | put | get | producerStep => cases host
  | openCmd | closeCmd | readCmd | writeCmd =>
    cases host
    exact Host.Outcome.next.inj e ▸ s.hostCmd_onlyPort h _
  | illegalCommand =>
    cases host
    rcases execIllegalCommand_cases e with rfl | ⟨_, _, rfl⟩ | ⟨_, _, _, rfl⟩
    · exact .of_same rfl
    · exact ⟨_, rfl⟩
    · exact ⟨_, rfl⟩
  | openIssue => cases host; exact .of_ite e (s.issueBody_onlyPort h (.openC 0#7))
  | closeIssue => cases host; exact .of_ite e (s.issueBody_onlyPort h .closeC)
  | readIssue => cases host; exact .of_ite e (s.issueBody_onlyPort h .readC)
  | writeIssue => cases host; exact .of_ite e (s.issueBody_onlyPort h .writeC)
  | rdLoop =>
    cases host
    rcases execRdLoop_cases e with rfl | ⟨_, _, ⟨_, rfl⟩ | ⟨_, _, rfl⟩ | ⟨_, _, _, _, _, rfl⟩⟩
    · exact .of_same rfl
    · exact ⟨_, rfl⟩
    · exact ⟨_, rfl⟩
    · exact .of_same rfl
  | rdWoken =>
    cases host
    rcases execRdWoken_cases e with rfl | ⟨_, _, rfl⟩
    · exact .of_same rfl
    · exact ⟨_, rfl⟩
  | wrPendCheck =>
    cases host
    rcases execWrPendCheck_cases e with rfl | ⟨_, _, ⟨_, rfl⟩ | ⟨_, _, _, rfl⟩ | ⟨_, _, _, _, _, _, rfl⟩⟩
    · exact .of_same rfl
    · exact ⟨_, rfl⟩
    · exact ⟨_, rfl⟩
    · exact ⟨_, rfl⟩
  | wrCheck =>
    cases host
    rcases execWrCheck_cases e with rfl | ⟨_, _, ⟨_, rfl⟩ | ⟨_, _, rfl⟩ | ⟨_, _, rfl⟩⟩
    · exact .of_same rfl
    · exact ⟨_, rfl⟩
    · exact ⟨_, rfl⟩
    · exact ⟨_, rfl⟩
  | wrExit =>
    cases host
    rcases execWrExit_cases e with rfl | ⟨_, _, rfl⟩
    · exact .of_same rfl
    · exact ⟨_, rfl⟩
  | _ =>
    cases host
    exact .of_ite e ⟨_, rfl⟩

/-! ### The steps of the other agents -/

theorem execIsrService_ports {s t : State} (e : execIsrService s = .next t) : t.ports = s.ports := by
  rcases execIsrService_cases e with rfl | ⟨_, u, received, produced⟩
  · rfl
  have half : u.ports = s.ports := by rcases received with ⟨_, rfl⟩ | ⟨_, _, _, rfl⟩ <;> rfl
  rcases produced with ⟨_, rfl⟩ | ⟨_, e⟩
  · exact half
  · exact (State.readSideKept_of_produce e).ports.trans half

/-- A tick writes of a port its wait count alone (41_timeout_timer.md R142). -/
theorem Port.tick_eq (p : Port) : p.tick = { p with wwaitRem := p.tick.wwaitRem } := by
  rw [Port.tick]
  split_ifs <;> rfl

/-- A step that is no host's writes of a port at most its wait count (60_exceptions.md R303). -/
theorem exec_port_of_no_host {i : Instr} {s t : State} (other : hostOf i = none) (e : exec i s = .next t) (j : Nat) :
    ∃ n, t.port j = { s.port j with wwaitRem := n } := by
  have kept (ports : t.ports = s.ports) : ∃ n, t.port j = { s.port j with wwaitRem := n } :=
    ⟨(s.port j).wwaitRem, congrArg (·.getD j Port.reset) ports⟩
  cases i with
  | isrService => exact kept (execIsrService_ports e)
  | tick =>
    rcases execTick_cases e with rfl | ⟨_, rfl⟩
    · exact kept rfl
    · exact ⟨_, (s.ticked_port j).trans (Port.tick_eq _)⟩
  | rtExpire | pwExpire | rxArrive | txRequest | otherCause => exact kept (field_of_ite State.ports e rfl)
  | put => rcases execPut_cases e with rfl | ⟨_, ⟨_, rfl⟩ | ⟨_, rfl⟩⟩ <;> exact kept rfl
  | get => rcases execGet_cases e with rfl | ⟨_, _, ⟨_, rfl⟩ | ⟨_, _, _, rfl⟩⟩ <;> exact kept rfl
  | producerStep =>
    rcases execProducerStep_cases e with rfl | ⟨_, _, _, _, e⟩
    · exact kept rfl
    · exact kept (State.readSideKept_of_produce e).ports
  | _ => cases other

/-- Settles O54: the rows of the first list are steps of port `h`'s host, those of the second are no host's. -/
theorem portsBelongToTheirHosts : Obligations.PortsBelongToTheirHosts := by
  intro s t h j a w b k
  refine ⟨fun ne i row e => ?_, fun i row e => ?_⟩
  · have host : hostOf i = some h := by simpa [hostOf] using List.mem_map_of_mem (f := hostOf) row
    exact (exec_onlyPort host e).port_ne ne
  · have other : hostOf i = none := by simpa [hostOf] using List.mem_map_of_mem (f := hostOf) row
    obtain ⟨n, port⟩ := exec_port_of_no_host other e j
    rw [port]
    exact ⟨rfl, rfl, rfl, rfl⟩

end Sys2Proof.Machine
end

section
/-! PROOF. A port blocks only in RD_WAIT and WR_WAIT (60_exceptions.md R314): in every other phase of a command the
port's step is there to take and moves the block. -/

namespace Sys2Proof.Machine

/-- The row answers a next state that differs in more than the history. -/
def State.Moves (s : State) (i : Instr) : Prop := ∃ t, exec i s = .next t ∧ t ≠ { s with history := t.history }

/-- A step that takes its port to another phase. -/
theorem State.moves_of_phase {s t : State} {i : Instr} {h : Nat} {f : Port → Port} (e : exec i s = .next t)
    (there : h < s.ports.length) (ports : t.ports = s.ports.modify h f)
    (other : (f (s.port h)).phase ≠ (s.port h).phase) : s.Moves i := by
  refine ⟨t, e, fun same => other ?_⟩
  rw [← State.port_of_ports_eq there ports]
  exact congrArg (fun u => (u.port h).phase) same

section
variable {s : State} {h : Nat} (may : s.hostMay h = true)
include may

/-- RD_LOOP ends the READ, goes to wait, or takes one byte out of the ring (42_read_engine.md R172). -/
theorem State.Inv.moves_rdLoop (inv : s.Inv) (phase : (s.port h).phase = .rdLoop)
    (adm : s.admitted s.rd.nextAddr = true) : s.Moves (.rdLoop h) := by
  have there := ((State.hostMay_iff s h).mp may).1
  by_cases finished : s.rd.count = 0#32
  · exact State.moves_of_phase (exec_rdLoop_finished may phase finished) there rfl (by simp [phase])
  by_cases empty : s.ring.cnt = 0
  · refine State.moves_of_phase (exec_rdLoop_empty may phase finished empty) there rfl ?_
    simp only [phase]
    split_ifs <;> decide
  obtain ⟨b, oldest⟩ := Option.isSome_iff_exists.mp (inv.ring.oldest_isSome empty)
  refine ⟨_, (exec_rdLoop_byte may phase finished empty oldest).trans (if_pos adm), fun same => ?_⟩
  have cnt : s.ring.cnt - 1 = s.ring.cnt := congrArg (·.ring.cnt) same
  omega

/-- WR_PEND_CHECK goes on to WR_DRAIN, with a request answered or with none (43_write_engine.md R202). -/
theorem State.moves_wrPendCheck (phase : (s.port h).phase = .wrPendCheck) (adm : s.admitted s.wr.nextAddr = true)
    (written : (Memory.read s.hmem s.wr.nextAddr.toNat).isSome = true) : s.Moves (.wrPendCheck h) := by
  have there := ((State.hostMay_iff s h).mp may).1
  have drains {t : State} (e : exec (.wrPendCheck h) s = .next t)
      (ports : t.ports = s.ports.modify h fun q => { q with phase := .wrDrain }) : s.Moves (.wrPendCheck h) :=
    State.moves_of_phase e there ports (by simp [phase])
  by_cases request : s.periph.pen = true ∧ s.periph.treq = true
  · obtain ⟨on, request⟩ := request
    by_cases done : s.wr.count = 0#32
    · exact drains (exec_wrPendCheck_noData may phase on request done) rfl
    · obtain ⟨v, byte⟩ := Option.isSome_iff_exists.mp written
      exact drains (exec_wrPendCheck_send may phase on request done adm byte) rfl
  · exact drains (exec_wrPendCheck_quiet may phase (by simpa only [not_and_or, Bool.not_eq_true] using request)) rfl

/-- RD_WOKEN goes back to RD_LOOP or on to RD_EXIT (42_read_engine.md R175). -/
theorem State.moves_rdWoken (phase : (s.port h).phase = .rdWoken) : s.Moves (.rdWoken h) := by
  refine State.moves_of_phase (rdWokenChecksTheTimeout s h may phase) ((State.hostMay_iff s h).mp may).1 rfl ?_
  simp only [phase]
  split_ifs <;> decide

/-- WR_CHECK goes to WR_EXIT or to WR_WAIT (43_write_engine.md R204). -/
theorem State.moves_wrCheck (phase : (s.port h).phase = .wrCheck) : s.Moves (.wrCheck h) := by
  have there := ((State.hostMay_iff s h).mp may).1
  obtain ⟨finished, poll, waits⟩ := wrCheckDecidesTheWait s h may phase
  by_cases done : s.wr.count = 0#32
  · exact State.moves_of_phase (finished done) there rfl (by simp [phase])
  by_cases bound : s.cfg.writeTimeout = 0#32
  · exact State.moves_of_phase (poll done bound) there rfl (by simp [phase])
  · exact State.moves_of_phase (waits done bound) there rfl (by simp [phase])

end

/-- Settles O55: each phase that does not wait has its row, which takes the port to another phase, but for RD_LOOP
with a byte to store. -/
theorem portsBlockOnlyWhileWaiting : Obligations.PortsBlockOnlyWhileWaiting := by
  intro s h inv may read_adm write_adm busy not_rdWait not_wrWait
  have there := ((State.hostMay_iff s h).mp may).1
  cases phase : (s.port h).phase with
  | idle => exact absurd phase busy
  | rdWait => exact absurd phase not_rdWait
  | wrWait => exact absurd phase not_wrWait
  | opBuild =>
    exact ⟨.opBuild h, by simp, State.moves_of_phase (exec_opBuild_of_atPhase may phase) there
      (State.finish_ports ..) (by simp [phase])⟩
  | rdLoop => exact ⟨.rdLoop h, by simp, inv.moves_rdLoop may phase (read_adm phase)⟩
  | rdWoken => exact ⟨.rdWoken h, by simp, State.moves_rdWoken may phase⟩
  | rdExit => exact ⟨.rdExit h, by simp, State.moves_of_phase (exec_rdExit may phase) there rfl (by simp [phase])⟩
  | wrPendCheck =>
    obtain ⟨adm, written⟩ := write_adm phase
    exact ⟨.wrPendCheck h, by simp, State.moves_wrPendCheck may phase adm written⟩
  | wrDrain =>
    exact ⟨.wrDrain h, by simp, State.moves_of_phase (wrDrainTakesWsem s h may phase) there rfl (by simp [phase])⟩
  | wrCheck => exact ⟨.wrCheck h, by simp, State.moves_wrCheck may phase⟩
  | wrExit => exact ⟨.wrExit h, by simp, State.moves_of_phase (exec_wrExit may phase) there rfl (by simp [phase])⟩

end Sys2Proof.Machine
end

section
/-! PROOF. Which steps happen (60_exceptions.md R301, R310): a row whose condition fails is skipped
(notes/assumptions/2.md), an enabled one completes, and what is no agent's step is never enabled between two steps. -/

namespace Sys2Proof.Machine

/-! ### What is not enabled does not happen -/

/-- RD_LOOP at another phase, or with a queued byte that may not be stored (20_memory.md R71). -/
theorem exec_rdLoop_of_not_enabled {s : State} {h : Nat} (ring : s.ring.Inv) (off : s.enabled (.rdLoop h) = false) :
    exec (.rdLoop h) s = .next s := by
  by_cases here : s.atPhase h .rdLoop = true
  · obtain ⟨may, phase⟩ := (State.atPhase_iff s h _).mp here
    obtain ⟨left, queued, refused⟩ : s.rd.count ≠ 0#32 ∧ s.ring.cnt ≠ 0 ∧ ¬ s.admitted s.rd.nextAddr = true := by
      simpa [State.enabled, here, State.rdLoopAdmitted, and_assoc] using off
    obtain ⟨b, oldest⟩ := Option.isSome_iff_exists.mp (ring.oldest_isSome queued)
    exact (exec_rdLoop_byte may phase left queued oldest).trans (if_neg refused)
  · exact if_neg here

theorem State.producerAdmitted_eq_false_iff (s : State) :
    s.producerAdmitted = false ↔ s.wr.count ≠ 0#32 ∧ s.admitted s.wr.nextAddr = false := by
  simp [State.producerAdmitted]

/-- WR_PEND_CHECK at another phase, or with a request whose byte may not be read (20_memory.md R71). -/
theorem exec_wrPendCheck_of_not_enabled {s : State} {h : Nat} (off : s.enabled (.wrPendCheck h) = false) :
    exec (.wrPendCheck h) s = .next s := by
  by_cases here : s.atPhase h .wrPendCheck = true
  · obtain ⟨may, phase⟩ := (State.atPhase_iff s h _).mp here
    obtain ⟨⟨on, request⟩, refused⟩ : (s.periph.pen = true ∧ s.periph.treq = true) ∧ s.producerAdmitted = false := by
      simpa [State.enabled, here] using off
    obtain ⟨left, refused⟩ := s.producerAdmitted_eq_false_iff.mp refused
    exact exec_wrPendCheck_refused may phase on request left refused
  · exact if_neg here

/-- PRODUCER_STEP uncalled, or called for a byte that may not be read (43_write_engine.md R210). -/
theorem exec_producerStep_of_not_enabled {s : State} (off : s.enabled .producerStep = false) :
    exec .producerStep s = .next s := by
  rcases execProducerStep_eq s with ⟨_, skipped⟩ | ⟨port, called, on, request, _⟩
  · exact skipped
  · have refused : s.producerAdmitted = false := by
      simpa [State.enabled, State.producerCalled, called, on, request] using off
    obtain ⟨left, refused⟩ := s.producerAdmitted_eq_false_iff.mp refused
    exact exec_producerStep_refused called on request left refused

theorem exec_get_of_not_enabled {s : State} (off : s.enabled .get = false) : exec .get s = .next s :=
  exec_get_of_not_called fun h called => by simp [State.enabled, State.getCalled, called] at off

/-- ILLEGAL_COMMAND by a host that may take no step, or with a word that is legal on its port
(notes/assumptions/19.md). -/
theorem exec_illegalCommand_of_not_enabled {s : State} {h : Nat} {w : Word}
    (off : s.enabled (.illegalCommand h w) = false) : exec (.illegalCommand h w) s = .next s := by
  cases decodes : decodeCommand w (s.port h).arg1 with
  | ok k => simp [exec, execIllegalCommand, decodes]
  | error x =>
    have held : s.hostMay h = false := by simpa [State.enabled, decodes, Except.isOk, Except.toBool] using off
    rw [exec_illegalCommand_of_error decodes, State.hostCmd, held]
    rfl

/-- Every row asks its condition first (60_exceptions.md R301). -/
theorem exec_of_not_enabled {i : Instr} {s : State} (ring : s.ring.Inv) (off : s.enabled i = false) :
    exec i s = .next s := by
  cases i with
  | openCmd | closeCmd | readCmd | writeCmd => exact congrArg _ (if_neg (Bool.eq_false_iff.mp off))
  | illegalCommand => exact exec_illegalCommand_of_not_enabled off
  | rdLoop => exact exec_rdLoop_of_not_enabled ring off
  | wrPendCheck => exact exec_wrPendCheck_of_not_enabled off
  | tick => exact if_pos (by simpa [State.enabled] using off)
  | put => exact exec_put_of_not_called (of_decide_eq_false off)
  | get => exact exec_get_of_not_enabled off
  | producerStep => exact exec_producerStep_of_not_enabled off
  | _ => exact if_neg (Bool.eq_false_iff.mp off)

/-! ### Records -/

/-- The history has grown, by the step's own record first (60_exceptions.md R310). -/
def State.Recorded (s t : State) : Prop := ∃ r rs, t.history = s.history ++ r :: rs

theorem State.Recorded.trans {s t u : State} (first : s.Recorded t) (second : t.Recorded u) : s.Recorded u := by
  obtain ⟨r, rs, e⟩ := first
  obtain ⟨r', rs', e'⟩ := second
  exact ⟨r, rs ++ r' :: rs', by rw [e', e, List.append_assoc, List.cons_append]⟩

/-- A command's own body records itself (45_lifecycle.md R289). -/
theorem State.issueBody_recorded (s : State) (h : Nat) (k : Command) : s.Recorded (s.issueBody h k) := by
  cases k with
  | openC => rcases s.openIssue_cases h with ⟨_, e⟩ | ⟨_, e⟩ <;> exact ⟨_, [], congrArg State.history e⟩
  | closeC => rcases s.closeIssue_cases h with ⟨_, e⟩ | ⟨_, e⟩ <;> exact ⟨_, [], congrArg State.history e⟩
  | readC =>
    rcases s.readIssue_cases h with ⟨_, e⟩ | ⟨_, _, e⟩ | ⟨_, _, e⟩ <;> exact ⟨_, [], congrArg State.history e⟩
  | writeC => rcases s.writeIssue_cases h with ⟨_, e, _⟩ | ⟨_, _, _, e⟩ <;> exact ⟨_, [], congrArg State.history e⟩

theorem State.recorded_of_produce {s t : State} {agent : Agent} {port : Option Nat}
    (e : s.produce agent port = .ok t) : s.Recorded t := by
  rcases State.produce_eq_ok e with ⟨_, rfl⟩ | ⟨_, _, _, _, rfl⟩
  · exact ⟨_, [], rfl⟩
  · exact ⟨_, [], rfl⟩

theorem State.Received.recorded {s u : State} (received : s.Received u) : s.Recorded u := by
  cases received with
  | quiet => exact ⟨_, [], rfl⟩
  | byte => exact .trans (t := s.afterSnapshot) ⟨_, [], rfl⟩ ⟨_, [], rfl⟩

theorem State.wrCheck_recorded (s : State) (h : Nat) : s.Recorded (s.wrCheck h) := by
  rw [State.wrCheck]
  split_ifs <;> exact ⟨_, [], rfl⟩

/-! ### What is enabled completes -/

/-- What an enabled step may come to: the model's fault, a recorded step, or an overrun (10_state.md R25). -/
def State.Completes (s : State) (o : Host.Outcome State Fault Refusal) : Prop :=
  o = .fault .modelUnwritten ∨
    ∃ t, o = .next t ∧ (s.Recorded t ∨ ∃ h, (s.port h).busy = true ∧ t = s.overrun h)

theorem State.Recorded.completes {s t : State} (recorded : s.Recorded t) : s.Completes (.next t) :=
  .inr ⟨t, rfl, .inl recorded⟩

/-- An atomic step that is not stuck. -/
theorem State.completes_atomicStep {s : State} {x : Attempt State} (moves : x ≠ .stuck)
    (recorded : ∀ t, x = .ok t → s.Recorded t) : s.Completes (atomicStep s x) := by
  cases x with
  | ok t => exact (recorded t rfl).completes
  | stuck => exact absurd rfl moves
  | unwritten => exact .inl rfl

/-- A host's write of a command word (45_lifecycle.md R289, R291). -/
theorem State.completes_hostCmd {s : State} {h : Nat} (may : s.hostMay h = true) (w : Word) :
    s.Completes (.next (s.hostCmd h w)) := by
  rcases State.hostCmd_cases s h w with ⟨held, _⟩ | ⟨_, busy, e⟩ | ⟨_, _, _, e⟩ | ⟨_, _, k, _, e⟩
  · cases may.symm.trans held
  · exact .inr ⟨_, rfl, .inr ⟨h, busy, e⟩⟩
  · exact State.Recorded.completes ⟨_, [], congrArg State.history e⟩
  · rw [e]
    exact State.Recorded.completes (State.issueBody_recorded (s.latched h w) h k)

theorem completes_rdLoop {s : State} {h : Nat} (on : s.enabled (.rdLoop h) = true) :
    s.Completes (exec (.rdLoop h) s) := by
  obtain ⟨here, adm⟩ := Bool.and_eq_true_iff.mp on
  obtain ⟨may, phase⟩ := (State.atPhase_iff s h _).mp here
  by_cases finished : s.rd.count = 0#32
  · rw [exec_rdLoop_finished may phase finished]
    exact State.Recorded.completes ⟨_, _, rfl⟩
  by_cases empty : s.ring.cnt = 0
  · rw [exec_rdLoop_empty may phase finished empty]
    exact State.Recorded.completes ⟨_, _, rfl⟩
  cases oldest : s.ring.mem[s.ring.rd]?.getD none with
  | none => exact .inl (execRdLoop_eq_fault_iff.mpr ⟨rfl, may, phase, finished, empty, oldest⟩)
  | some b =>
    have adm : s.admitted s.rd.nextAddr = true := by simpa [State.rdLoopAdmitted, finished, empty] using adm
    rw [exec_rdLoop_byte may phase finished empty oldest, if_pos adm]
    exact State.Recorded.completes ⟨_, _, rfl⟩

theorem completes_wrPendCheck {s : State} {h : Nat} (on : s.enabled (.wrPendCheck h) = true) :
    s.Completes (exec (.wrPendCheck h) s) := by
  obtain ⟨here, adm⟩ := Bool.and_eq_true_iff.mp on
  obtain ⟨may, phase⟩ := (State.atPhase_iff s h _).mp here
  by_cases request : s.periph.pen = true ∧ s.periph.treq = true
  · obtain ⟨pen, request⟩ := request
    by_cases done : s.wr.count = 0#32
    · rw [exec_wrPendCheck_noData may phase pen request done]
      exact State.Recorded.completes ⟨_, _, rfl⟩
    have adm : s.admitted s.wr.nextAddr = true := by simpa [pen, request, State.producerAdmitted, done] using adm
    cases byte : Memory.read s.hmem s.wr.nextAddr.toNat with
    | none => exact .inl (execWrPendCheck_eq_fault_iff.mpr ⟨rfl, may, phase, pen, request, done, adm, byte⟩)
    | some v =>
      rw [exec_wrPendCheck_send may phase pen request done adm byte]
      exact State.Recorded.completes ⟨_, _, rfl⟩
  · rw [exec_wrPendCheck_quiet may phase (by simpa only [not_and_or, Bool.not_eq_true] using request)]
    exact State.Recorded.completes ⟨_, [], rfl⟩

/-- ISR_SERVICE, whose read is admitted where it is enabled (60_exceptions.md R301). -/
theorem completes_isrService {s : State} (on : s.isrEnabled = true) : s.Completes (exec .isrService s) := by
  rcases s.received_or_no_value with ⟨u, received⟩ | no_value
  · cases request : s.periph.treq with
    | false =>
      rw [received.exec_without_request on request]
      exact received.recorded.completes
    | true =>
      rw [received.exec_with_request on request]
      have adm : u.producerAdmitted = true :=
        received.producerAdmitted_eq.trans (State.producerAdmitted_of_isrEnabled on request)
      exact State.completes_atomicStep (State.produce_ne_stuck adm .isr none) fun t produced =>
        received.recorded.trans (State.recorded_of_produce produced)
  · exact .inl (execIsrService_eq_fault_iff.mpr ⟨rfl, on, .inl no_value⟩)

theorem completes_get {s : State} (on : s.getCalled = true) : s.Completes (exec .get s) := by
  rcases execGet_eq s with ⟨uncalled, _⟩ | ⟨h, called, _⟩
  · cases on.symm.trans uncalled
  by_cases empty : s.ring.cnt = 0
  · rw [exec_get_empty called empty]
    exact State.Recorded.completes ⟨_, [], rfl⟩
  cases oldest : s.ring.mem[s.ring.rd]?.getD none with
  | none => exact .inl (execGet_eq_fault_iff.mpr ⟨rfl, ⟨h, called⟩, empty, oldest⟩)
  | some b =>
    rw [exec_get_byte called empty oldest]
    exact State.Recorded.completes ⟨_, [], rfl⟩

theorem completes_put {s : State} {b : Byte} (called : s.call = some (.put b)) : s.Completes (exec (.put b) s) := by
  by_cases full : s.ring.cnt = s.ring.cap
  · rw [exec_put_full called full]
    exact State.Recorded.completes ⟨_, [], rfl⟩
  · rw [exec_put_room called full]
    exact State.Recorded.completes ⟨_, [], rfl⟩

theorem completes_producerStep {s : State} (on : s.enabled .producerStep = true) :
    s.Completes (exec .producerStep s) := by
  obtain ⟨called, adm⟩ := Bool.and_eq_true_iff.mp on
  rcases execProducerStep_eq s with ⟨uncalled, _⟩ | ⟨port, called, pen, request, _⟩
  · cases called.symm.trans uncalled
  · rw [exec_producerStep_of_called called pen request]
    exact State.completes_atomicStep (State.produce_ne_stuck (s := s.endCall) adm _ port) fun t =>
      State.recorded_of_produce (s := s.endCall)

/-- ILLEGAL_COMMAND is the host's write of its word (45_lifecycle.md R291). -/
theorem completes_illegalCommand {s : State} {h : Nat} {w : Word} (on : s.enabled (.illegalCommand h w) = true) :
    s.Completes (exec (.illegalCommand h w) s) := by
  obtain ⟨may, illegal⟩ := Bool.and_eq_true_iff.mp on
  cases decodes : decodeCommand w (s.port h).arg1 with
  | ok => simp [decodes, Except.isOk, Except.toBool] at illegal
  | error =>
    rw [exec_illegalCommand_of_error decodes]
    exact State.completes_hostCmd may w

/-- A meaning whose condition holds and whose state is recorded. -/
theorem State.completes_ite {c : Prop} [Decidable c] {s t : State} (holds : c) (recorded : s.Recorded t) :
    s.Completes (if c then .next t else .next s) := by
  rw [if_pos holds]
  exact recorded.completes

theorem completes_of_enabled {i : Instr} {s : State} (on : s.enabled i = true) : s.Completes (exec i s) := by
  cases i with
  | openCmd | closeCmd | readCmd | writeCmd => exact State.completes_hostCmd on _
  | illegalCommand => exact completes_illegalCommand on
  | openIssue h => exact State.completes_ite on (s.issueBody_recorded h (.openC 0#7))
  | closeIssue h => exact State.completes_ite on (s.issueBody_recorded h .closeC)
  | readIssue h => exact State.completes_ite on (s.issueBody_recorded h .readC)
  | writeIssue h => exact State.completes_ite on (s.issueBody_recorded h .writeC)
  | rdLoop => exact completes_rdLoop on
  | rdWoken h =>
    obtain ⟨may, phase⟩ := (State.atPhase_iff s h _).mp on
    rw [rdWokenChecksTheTimeout s h may phase]
    exact State.Recorded.completes ⟨_, [], rfl⟩
  | wrPendCheck => exact completes_wrPendCheck on
  | wrCheck h => exact State.completes_ite on (s.wrCheck_recorded h)
  | isrService => exact completes_isrService on
  | tick =>
    rw [exec_tick_of_free (by simpa [State.enabled] using on)]
    exact State.Recorded.completes ⟨_, [], rfl⟩
  | put => exact completes_put (of_decide_eq_true on)
  | get => exact completes_get on
  | producerStep => exact completes_producerStep on
  | _ => exact State.completes_ite on ⟨_, [], rfl⟩

/-! ### What is no agent's step -/

/-- Between two steps no sub-operation stands called, so none is enabled (notes/assumptions/6.md). -/
theorem State.Inv.not_enabled_of_callOf {s : State} (inv : s.Inv) {i : Instr} {c : SubCall} (sub : callOf i = some c) :
    s.enabled i = false := by
  cases i with
  | put | get | producerStep => simp [State.enabled, State.getCalled, State.producerCalled, inv.call]
  | _ => cases sub

/-- Settles O46: each row asks its condition first and completes where it holds, and the conditions of the issue
bodies and the sub-operations contradict the invariant. -/
theorem onlyEnabledStepsHappen : Obligations.OnlyEnabledStepsHappen := by
  refine fun i s => ⟨exec_of_not_enabled, completes_of_enabled, fun inv on => ?_⟩
  have no_call {c : SubCall} (sub : callOf i = some c) : False := by
    cases (inv.not_enabled_of_callOf sub).symm.trans on
  refine ⟨fun h => ⟨?_, ?_, ?_, ?_⟩, ?_, ?_, ?_⟩
  · rintro rfl; exact inv.not_issuing on
  · rintro rfl; exact inv.not_issuing on
  · rintro rfl; exact inv.not_issuing on
  · rintro rfl; exact inv.not_issuing on
  · rintro b rfl; exact no_call rfl
  · rintro rfl; exact no_call rfl
  · rintro rfl; exact no_call rfl

end Sys2Proof.Machine
end

section
/-! PROOF. Reset and the launch values (70_reset_and_hazards.md R340 to R342; 20_memory.md R81): the reset event leaves
the reset state at the machine's own lengths, and no step changes N_HOST or RING_C, the launch values that are lengths. -/

namespace Sys2Proof.Machine

/-! ### The reset event -/

/-- Settles O40: a port list in which each port is reset is the reset list of its length, and every other field is
reset or kept by definition. -/
theorem resetEventRestoresTheBlock : Obligations.ResetEventRestoresTheBlock := fun s => by
  have ports : (s.ports.map fun _ => Port.reset) = List.replicate s.ports.length Port.reset := List.map_const' ..
  rw [runInput, State.applyReset, ports]
  rfl

/-! ### The lengths that are launch values -/

/-- N_HOST and RING_C, lengths of the state's own lists (00_scope.md R6; notes/assumptions/13.md). -/
def State.sizes (s : State) : Nat × Nat := (s.ports.length, s.ring.cap)

theorem State.updPort_sizes (s : State) (h : Nat) (f : Port → Port) : (s.updPort h f).sizes = s.sizes :=
  Prod.ext (s.updPort_ports_length h f) rfl

theorem State.applyReset_sizes (s : State) : s.applyReset.sizes = s.sizes :=
  Prod.ext (List.length_map ..) (List.length_replicate ..)

/-! ### The instructions -/

/-- No step but a host's or TICK's writes a port (60_exceptions.md R303). -/
theorem exec_ports_of_no_host {i : Instr} {s t : State} (other : hostOf i = none) (no_tick : i ≠ .tick)
    (e : exec i s = .next t) : t.ports = s.ports := by
  cases i with
  | isrService => exact execIsrService_ports e
  | tick => exact absurd rfl no_tick
  | rtExpire | pwExpire | rxArrive | txRequest | otherCause => exact field_of_ite State.ports e rfl
  | put => rcases execPut_cases e with rfl | ⟨_, ⟨_, rfl⟩ | ⟨_, rfl⟩⟩ <;> rfl
  | get => rcases execGet_cases e with rfl | ⟨_, _, ⟨_, rfl⟩ | ⟨_, _, _, rfl⟩⟩ <;> rfl
  | producerStep =>
    rcases execProducerStep_cases e with rfl | ⟨_, _, _, _, e⟩
    · rfl
    · exact (State.readSideKept_of_produce e).ports
  | _ => cases other

/-- A host step modifies its own port, TICK maps over the ports, and no other step writes one. -/
theorem exec_ports_length {i : Instr} {s t : State} (e : exec i s = .next t) : t.ports.length = s.ports.length := by
  cases host : hostOf i with
  | some h =>
    obtain ⟨f, ports⟩ := exec_onlyPort host e
    rw [ports, List.length_modify]
  | none =>
    by_cases tick : i = .tick
    · subst tick
      rcases execTick_cases e with rfl | ⟨_, rfl⟩
      · rfl
      · exact List.length_map ..
    · rw [exec_ports_of_no_host host tick e]

theorem execIsrService_ring_cap {s t : State} (e : execIsrService s = .next t) : t.ring.cap = s.ring.cap := by
  rcases execIsrService_cases e with rfl | ⟨_, u, received, produced⟩
  · rfl
  have half : u.ring.cap = s.ring.cap := by rcases received with ⟨_, rfl⟩ | ⟨_, _, _, rfl⟩ <;> simp
  rcases produced with ⟨_, rfl⟩ | ⟨_, e⟩
  · exact half
  · rw [State.ring_of_produce e, half]

theorem execPut_ring_cap {s t : State} {b : Byte} (e : execPut b s = .next t) : t.ring.cap = s.ring.cap := by
  rcases execPut_cases e with rfl | ⟨_, ⟨_, rfl⟩ | ⟨_, rfl⟩⟩
  · rfl
  · rfl
  · exact List.length_set ..

/-- Only the producer writes a cell, and it sets one in place (40_ring_buffer.md R120, R122). -/
theorem exec_ring_cap {i : Instr} {s t : State} (e : exec i s = .next t) : t.ring.cap = s.ring.cap := by
  rcases (exec_ringFrame e).mem with same | rfl | ⟨b, rfl, _⟩
  · exact congrArg List.length same
  · exact execIsrService_ring_cap e
  · exact execPut_ring_cap e

theorem exec_sizes {i : Instr} {s t : State} (e : exec i s = .next t) : t.sizes = s.sizes :=
  Prod.ext (exec_ports_length e) (exec_ring_cap e)

/-! ### The entries of the schedule -/

theorem State.hostCmd_sizes (s : State) (h : Nat) (w : Word) : (s.hostCmd h w).sizes = s.sizes := by
  obtain ⟨i, e⟩ := exists_exec_eq_hostCmd s h w
  exact exec_sizes e

/-- An operand write sets OVR on a busy port and the operand on a free one (10_state.md R25). -/
theorem State.argWrite_sizes (s : State) (h : Nat) (f : Port → Port) : (s.argWrite h f).sizes = s.sizes := by
  rw [State.argWrite]
  split_ifs <;> exact s.updPort_sizes h _

theorem State.writeReg_sizes {s : State} (free : s.heldOff = false) (r : Reg) (v : Word) :
    (s.writeReg r v).sizes = s.sizes := by
  cases r with
  | cmd h => rw [State.writeReg_cmd free, State.hostCmd_sizes]
  | arg0 h | arg1 h | arg2 h => exact s.argWrite_sizes h _
  | _ => rfl

theorem State.busWrite_sizes (s : State) (off : BitVec 12) (bw : BusWidth) (v : Word) :
    (s.busWrite off bw v).sizes = s.sizes := by
  rw [State.busWrite]
  split_ifs with held
  · rfl
  · cases regAt off bw with
    | none => rfl
    | some r => exact State.writeReg_sizes (by simpa using held) r v

theorem State.hostStore_sizes {s t : State} {a : Word} {v : Byte} (e : s.hostStore a v = .next t) :
    t.sizes = s.sizes := by
  rw [State.hostStore] at e
  split_ifs at e
  · rw [Host.Outcome.next.inj e]
  · rcases State.memWrite_cases s a v with ⟨_, w⟩ | ⟨_, w⟩ <;> rw [w] at e <;> obtain rfl := Host.Outcome.next.inj e
    · rfl
    · rfl

theorem runInput_sizes {inp : Input} {s t : State} (e : runInput inp s = .next t) : t.sizes = s.sizes := by
  cases inp with
  | busWrite off bw v =>
    cases reach : cmdPortOf off bw with
    | some h => exact Host.Outcome.next.inj ((runInput_busWrite_cmd reach v s).symm.trans e) ▸ s.hostCmd_sizes h v
    | none =>
      exact Host.Outcome.next.inj ((runInput_busWrite_other reach v s).symm.trans e) ▸ s.busWrite_sizes off bw v
  | busRead off bw =>
    obtain rfl := Host.Outcome.next.inj e
    rw [State.busRead]
    split_ifs <;> rfl
  | stepWord w =>
    cases d : decode (.stepWord w) s.arg1Of with
    | ok i => exact exec_sizes ((runInput_of_decode_ok d).symm.trans e)
    | error x => simp [runInput, d] at e
  | hostStore a v => exact State.hostStore_sizes e
  | reset => exact Host.Outcome.next.inj e ▸ s.applyReset_sizes

theorem step_sizes {s t : State} (e : step s = .next t) : t.sizes = s.sizes := by
  rcases step_cases s with nothing | ⟨inp, rest, runs⟩
  · rw [Host.Outcome.next.inj (nothing.symm.trans e)]
  · exact runInput_sizes (s := s.popInput rest) (runs.symm.trans e)

/-- Settles O45: a step keeps the launch values of State and the two that are lengths. -/
theorem launchValuesNeverChange : Obligations.LaunchValuesNeverChange := fun _ _ e =>
  have sizes := step_sizes e
  ⟨(step_memoryKept e).launch, congrArg Prod.fst sizes, congrArg Prod.snd sizes⟩

end Sys2Proof.Machine
end
